-- ==== Sys2Proof/Word.lean ====
section
/-! DEFINITION. The word types of the machine (00_scope.md R8, R10) and the names of its registers. -/

namespace Sys2Proof

/-- A byte, bits 7-0 (00_scope.md R8). -/
abbrev Byte := BitVec 8

/-- A word, bits 15-0 (00_scope.md R8). -/
abbrev Word := BitVec 16

/-- A long word, bits 31-0 (00_scope.md R8). -/
abbrev Long := BitVec 32

/-- The six general registers (10_state.md R21). -/
inductive GReg where
  | ra | rb | rc | rd | re | rf
  deriving DecidableEq, Repr, Inhabited

/-- The registers an operand specifier can name (10_state.md R20; 30_encoding.md R114). -/
inductive OpReg where
  | gen (r : GReg)
  | sp
  | pc
  deriving DecidableEq, Repr, Inhabited

/-- The four addressing modes of each class of register (30_encoding.md R115). -/
inductive AddrMode where
  | m0 | m1 | m2 | m3
  deriving DecidableEq, Repr, Inhabited

/-- The four ASTROM registers, Tabela 4.1 (10_state.md R36). -/
inductive AcReg where
  | r0 | r1 | r2 | r3
  deriving DecidableEq, Repr, Inhabited

end Sys2Proof
end

