-- ==== Sys2Proof/Config.lean ====
section
/-! DEFINITION. What an implementation fixes (the named parameters of 00_scope.md R6, as plain data) and the free
values: constants with no body, of which nothing can be proved but what the type says. -/

namespace Sys2Proof

/-- `UCODE_VERSION` (00_scope.md R3, R6). -/
inductive UcodeVersion where
  | v10 | v11
  deriving DecidableEq, Repr

/-- What answers at a physical address (20_memory.md R85); an address of no region has no slave. -/
inductive SlaveKind where
  /-- Reads return the last value written. -/
  | ram
  /-- Reads return a fixed content; the spec gives no meaning to a write. -/
  | rom
  /-- A register of a peripheral controller. -/
  | device
  deriving DecidableEq, Repr

/-- One entry of `MEM_MAP`: the physical byte addresses from `base` to `base + size - 1`. -/
structure Region where
  base : Nat
  size : Nat
  kind : SlaveKind
  deriving DecidableEq, Repr

/-- An access on the bus: its physical address and its width, true for a word (20_memory.md R82, R83). -/
structure BusAccess where
  pa : Word
  wide : Bool
  deriving DecidableEq, Repr

/-- The bits of the PSW that are neither LEVEL, which CNM fixes, nor a condition code, which the mask instructions fix
(10_state.md R30). -/
inductive PswBit where
  | bit15 | bit14 | bit13 | bit12 | bit7
  deriving DecidableEq, Repr

/-- `PSW_LAYOUT`: where B3, B2, B1, B0 and B stand among the five bits the instructions do not fix (10_state.md R30;
90_conflicts.md C1; log 2). -/
structure PswLayout where
  b3 : PswBit
  b2 : PswBit
  b1 : PswBit
  b0 : PswBit
  b : PswBit
  deriving DecidableEq, Repr

/-- `AstromFn.idiv_round` (47_astrom.md R384, R389): the default of the spec, or left open. -/
inductive DivRounding where
  | towardZero | unstated
  deriving DecidableEq, Repr

/-- The traps that an instruction can raise (00_scope.md R14; 60_exceptions.md R441), less BTP and TRAPn, whose entry is
the instruction's own effect. -/
inductive Trap where
  | stackLimit | oddAddress | busTimeout | parity | astrom | invalidOpcode
  deriving DecidableEq, Repr

/-- The integer operations of the ASTROM (47_astrom.md R389). -/
inductive AstromOp where
  | add | sub | mul | div | neg | abs
  deriving DecidableEq, Repr

/-- The ASTROM registers m[0..3] (10_state.md R36). -/
structure AstromRegs where
  r0 : Long
  r1 : Long
  r2 : Long
  r3 : Long
  deriving DecidableEq, Repr, Inhabited

/-- The six result codes of the ASTROM (10_state.md R37); UPFOK is an input and stands in `Inputs`. -/
structure AstromCodes where
  zupf : Bool
  supf : Bool
  divz : Bool
  ovfl : Bool
  undf : Bool
  cver : Bool
  deriving DecidableEq, Repr, Inhabited

/-- The named parameters of 00_scope.md R6. They are part of the state and no step changes them, so that a statement
about every state is a statement about every choice of them. -/
structure Config where
  /-- `UCODE_VERSION`. -/
  ucode : UcodeVersion
  /-- `ASTROM_PRESENT`. -/
  astromPresent : Bool
  /-- `REG_CODE`: the register of each 3-bit code, in the order of the codes (30_encoding.md R114). -/
  regCode : List OpReg
  /-- `MODE_CODE`: the mode of each 2-bit code, in the order of the codes (30_encoding.md R115). -/
  modeCode : List AddrMode
  /-- `PSW_LAYOUT` (10_state.md R30). -/
  pswLayout : PswLayout
  /-- `LONG_HIGH_IS_DECLARED` (10_state.md R24). -/
  longHighIsDeclared : Bool
  /-- `REL_PC_BIAS` is 2 rather than 0 (40_addressing_modes.md R162). -/
  relPcBiasTwo : Bool
  /-- `ENTRY_IS_BOUNDARY` (60_exceptions.md R455). -/
  entryIsBoundary : Bool
  /-- `AstromFn.idiv_round` (47_astrom.md R389). -/
  divRounding : DivRounding
  /-- The access faults whose stacked PC is not the default `TRAP_PC` but left open (60_exceptions.md R451). -/
  trapPcOpen : List Trap
  /-- `BASE_EXEMPT_INSTR`: an instruction word `w` is exempt from the program base when `w &&& mask = value` for one of
  these pairs (mask, value) (20_memory.md R78 c)). -/
  baseExempt : List (Word × Word)
  /-- `MEM_MAP` (20_memory.md R85). -/
  memMap : List Region
  /-- The reads for which `BusResponds` is false although `MEM_MAP` has a slave there (20_memory.md R82). -/
  silentReads : List BusAccess
  /-- The writes for which `BusResponds` is false although `MEM_MAP` has a slave there (20_memory.md R82). -/
  silentWrites : List BusAccess
  /-- The reads for which `BusParityError` is true (20_memory.md R83). -/
  badParity : List BusAccess
  deriving DecidableEq, Repr

/-- The map the model takes where the spec leaves `MEM_MAP` to the configuration (DESIGN CHOICE, log 27): RAM in
0x0000..0xF7FF, peripheral registers in 0xF800..0xFF7F, memory for the vectors in 0xFF80..0xFFFF (20_memory.md R76). -/
def defaultMemMap : List Region :=
  [⟨0x0000, 0xF800, .ram⟩, ⟨0xF800, 0x0780, .device⟩, ⟨0xFF80, 0x0080, .ram⟩]

/-- The defaults of 00_scope.md R6. -/
def defaultConfig : Config where
  ucode := .v11
  astromPresent := true
  regCode := [.gen .ra, .gen .rb, .gen .rc, .gen .rd, .gen .re, .gen .rf, .sp, .pc]
  modeCode := [.m0, .m1, .m2, .m3]
  pswLayout := ⟨.bit15, .bit14, .bit13, .bit12, .bit7⟩
  longHighIsDeclared := true
  relPcBiasTwo := false
  entryIsBoundary := true
  divRounding := .towardZero
  trapPcOpen := []
  baseExempt := []
  memMap := defaultMemMap
  silentReads := []
  silentWrites := []
  badParity := []

/-! ### The opaque record `AstromFn` (47_astrom.md R384) -/

/-- Floating-point addition (log 11). -/
opaque Config.fadd : Long → Long → Long × AstromCodes
/-- Floating-point subtraction (log 11). -/
opaque Config.fsub : Long → Long → Long × AstromCodes
/-- Floating-point multiplication (log 11). -/
opaque Config.fmul : Long → Long → Long × AstromCodes
/-- Floating-point division (log 11). -/
opaque Config.fdiv : Long → Long → Long × AstromCodes
/-- Floating-point negation (log 11). -/
opaque Config.fneg : Long → Long × AstromCodes
/-- Floating-point absolute value (log 11). -/
opaque Config.fabs : Long → Long × AstromCodes
/-- Conversion of a 16-bit integer to floating point (log 11). -/
opaque Config.itof : Word → Long × AstromCodes
/-- Conversion of floating point to an integer (log 11). -/
opaque Config.ftoi : Long → Long × AstromCodes
/-- What an integer operation leaves when its exact result is out of range or its divisor is 0 (47_astrom.md R389;
logs 11 and 20). -/
opaque Config.intExc : AstromOp → Word → Word → Long × AstromCodes
/-- Whether an inexact quotient is rounded up rather than down, where `divRounding` leaves it open (log 20). -/
opaque Config.divRoundsUp : Word → Word → Bool
/-- Whether a 32-bit pattern is the floating-point number zero (47_astrom.md R383, R384; log 11). -/
opaque Config.fpIsZero : Long → Bool
/-- Whether a 32-bit pattern is a negative floating-point number (47_astrom.md R383, R384; log 11). -/
opaque Config.fpIsNeg : Long → Bool

/-! ### Other free values; the first argument is the state's `freeCount` (log 33) -/

/-- What the ASTROM holds after a reset or after it was switched off (10_state.md R43; logs 19 and 25). -/
opaque Config.astromUnset : Nat → AstromRegs × AstromCodes
/-- Bits 7-1 of the byte SFGMB stores where the ASTROM is absent or off (47_astrom.md R380; log 19). -/
opaque Config.sfgmbAbsent : Nat → BitVec 7
/-- `TRAP_PC` where `trapPcOpen` leaves it open (60_exceptions.md R451; log 8). -/
opaque Config.trapPc : Nat → Trap → Word
/-- What a device register delivers: count, physical address, width in bits (20_memory.md R85; log 27). -/
opaque Config.devRead : Nat → Word → Nat → Word
/-- Whether a fetch sees a store into the word by the instruction just before (20_memory.md R91; log 7). -/
opaque Config.prefetchSees : Nat → Word → Bool

end Sys2Proof
end

