-- ==== Sys2Proof/Syntax.lean ====
section
/-! DEFINITION. The instructions of spec/opcode_table.json, one constructor per row, and their operands
(30_encoding.md R116 to R127; 40_addressing_modes.md R150). An instruction is what its one instruction word says; the
extension words are read while the operands are located (40_addressing_modes.md R151; log 32). -/

namespace Sys2Proof

/-- The twelve addressing modes (40_addressing_modes.md R150), each with the register it names. -/
inductive Operand where
  /-- RA..RF mode 0 (R152). -/
  | direct (r : GReg)
  /-- RA..RF mode 1 (R153). -/
  | indirect (r : GReg)
  /-- RA..RF mode 2 (R154). -/
  | indexed (r : GReg)
  /-- RA..RF mode 3 (R155). -/
  | indexedIndirect (r : GReg)
  /-- SP mode 0 (R156). -/
  | spDirect
  /-- SP mode 1 (R157). -/
  | autodec
  /-- SP mode 2 (R158). -/
  | autoinc
  /-- SP mode 3 (R159). -/
  | stackTop
  /-- PC mode 0 (R160). -/
  | immediate
  /-- PC mode 1 (R161). -/
  | absolute
  /-- PC mode 2 (R162). -/
  | relative
  /-- PC mode 3 (R163). -/
  | relativeIndirect
  deriving DecidableEq, Repr

/-- One constructor per row of spec/opcode_table.json. `rti`, `dhs` and `dlo` are second names of the words of `rtt`,
`dcz` and `dco` (30_encoding.md R123, R125; log 31). -/
inductive Instr where
  -- Two operands (41_two_operand.md)
  /-- ADD (R201). -/
  | add (fnt dst : Operand)
  /-- ADDB (R201). -/
  | addb (fnt dst : Operand)
  /-- DAC (R202). -/
  | dac (fnt dst : Operand)
  /-- DACB (R202). -/
  | dacb (fnt dst : Operand)
  /-- SUB (R203). -/
  | sub (fnt dst : Operand)
  /-- SUBB (R203). -/
  | subb (fnt dst : Operand)
  /-- DSB (R204). -/
  | dsb (fnt dst : Operand)
  /-- DSBB (R204). -/
  | dsbb (fnt dst : Operand)
  /-- CMP (R205). -/
  | cmp (fnt dst : Operand)
  /-- CMPB (R205). -/
  | cmpb (fnt dst : Operand)
  /-- AND (R206). -/
  | and (fnt dst : Operand)
  /-- ANDB (R206). -/
  | andb (fnt dst : Operand)
  /-- OR (R207). -/
  | or (fnt dst : Operand)
  /-- ORB (R207). -/
  | orb (fnt dst : Operand)
  /-- MSK (R208, microprogram 1.1 only). -/
  | msk (fnt dst : Operand)
  /-- MSKB (R208, microprogram 1.1 only). -/
  | mskb (fnt dst : Operand)
  /-- XOR (R209). -/
  | xor (fnt dst : Operand)
  /-- XORB (R209). -/
  | xorb (fnt dst : Operand)
  /-- XNR (R210, microprogram 1.1 only). -/
  | xnr (fnt dst : Operand)
  /-- XNRB (R210, microprogram 1.1 only). -/
  | xnrb (fnt dst : Operand)
  /-- COC (R211). -/
  | coc (fnt dst : Operand)
  /-- COCB (R211). -/
  | cocb (fnt dst : Operand)
  /-- CZC (R212, microprogram 1.1 only). -/
  | czc (fnt dst : Operand)
  /-- CZCB (R212, microprogram 1.1 only). -/
  | czcb (fnt dst : Operand)
  /-- MOV (R213). -/
  | mov (fnt dst : Operand)
  /-- MOVB (R213). -/
  | movb (fnt dst : Operand)
  /-- EXC (R214, microprogram 1.1 only). -/
  | exc (fnt dst : Operand)
  /-- EXCB (R214, microprogram 1.1 only). -/
  | excb (fnt dst : Operand)
  /-- DJZ (R215). -/
  | djz (fnt dst : Operand)
  /-- JSB (R216). -/
  | jsb (fnt dst : Operand)
  -- One operand: arithmetic, logic, data (42_one_operand_arith.md)
  /-- NEG (R231). -/
  | neg (dst : Operand)
  /-- NEGB (R231). -/
  | negb (dst : Operand)
  /-- INC (R232). -/
  | inc (dst : Operand)
  /-- INCB (R232). -/
  | incb (dst : Operand)
  /-- DCR (R233). -/
  | dcr (dst : Operand)
  /-- DCRB (R233). -/
  | dcrb (dst : Operand)
  /-- ICT (R234, microprogram 1.1 only). -/
  | ict (dst : Operand)
  /-- ICTB (R234, microprogram 1.1 only). -/
  | ictb (dst : Operand)
  /-- DCT (R235, microprogram 1.1 only). -/
  | dct (dst : Operand)
  /-- DCTB (R235, microprogram 1.1 only). -/
  | dctb (dst : Operand)
  /-- CMT (R236). -/
  | cmt (dst : Operand)
  /-- CMTB (R236). -/
  | cmtb (dst : Operand)
  /-- STZ (R237). -/
  | stz (dst : Operand)
  /-- STZB (R237). -/
  | stzb (dst : Operand)
  /-- STO (R238). -/
  | sto (dst : Operand)
  /-- STOB (R238). -/
  | stob (dst : Operand)
  /-- ABS (R239). -/
  | abs (dst : Operand)
  /-- ABSB (R239). -/
  | absb (dst : Operand)
  /-- ADC (R240). -/
  | adc (dst : Operand)
  /-- ADCB (R240). -/
  | adcb (dst : Operand)
  /-- SB (R241). -/
  | sb (dst : Operand)
  /-- SBB (R241). -/
  | sbb (dst : Operand)
  /-- CPZ (R242). -/
  | cpz (dst : Operand)
  /-- CPZB (R242). -/
  | cpzb (dst : Operand)
  /-- SXT (R243, microprogram 1.1 only). -/
  | sxt (dst : Operand)
  /-- SXTB (R243, microprogram 1.1 only). -/
  | sxtb (dst : Operand)
  -- Shifts and rotates (43_shift_rotate.md)
  /-- SLDL (R262). -/
  | sldl (dst : Operand)
  /-- SDCL (R263). -/
  | sdcl (dst : Operand)
  /-- RDCL (R264). -/
  | rdcl (dst : Operand)
  /-- SADL (R265). -/
  | sadl (dst : Operand)
  /-- RTDL (R266). -/
  | rtdl (dst : Operand)
  /-- SLD (R267). -/
  | sld (dst : Operand)
  /-- SLDB (R267). -/
  | sldb (dst : Operand)
  /-- SDC (R268). -/
  | sdc (dst : Operand)
  /-- SDCB (R268). -/
  | sdcb (dst : Operand)
  /-- RDC (R269). -/
  | rdc (dst : Operand)
  /-- RDCB (R269). -/
  | rdcb (dst : Operand)
  /-- SAD (R270). -/
  | sad (dst : Operand)
  /-- SADB (R270). -/
  | sadb (dst : Operand)
  /-- RTD (R271). -/
  | rtd (dst : Operand)
  /-- RTDB (R271). -/
  | rtdb (dst : Operand)
  /-- SLEL (R272). -/
  | slel (dst : Operand)
  /-- SECL (R273). -/
  | secl (dst : Operand)
  /-- RECL (R274). -/
  | recl (dst : Operand)
  /-- RTEL (R275). -/
  | rtel (dst : Operand)
  /-- SLE (R276). -/
  | sle (dst : Operand)
  /-- SLEB (R276). -/
  | sleb (dst : Operand)
  /-- SEC (R277). -/
  | sec (dst : Operand)
  /-- SECB (R277). -/
  | secb (dst : Operand)
  /-- REC (R278). -/
  | recw (dst : Operand)
  /-- RECB (R278). -/
  | recb (dst : Operand)
  /-- RTE (R279). -/
  | rte (dst : Operand)
  /-- RTEB (R279). -/
  | rteb (dst : Operand)
  -- One operand: arithmetic, logic, data (42_one_operand_arith.md)
  /-- SWB (R244). -/
  | swb (dst : Operand)
  -- One operand: control (44_one_operand_control.md)
  /-- RET (R301). -/
  | ret (dst : Operand)
  /-- JMP (R302). -/
  | jmp (dst : Operand)
  /-- SLP (R303). -/
  | slp (dst : Operand)
  /-- CLP (R304). -/
  | clp (dst : Operand)
  /-- SMK (R305). -/
  | smk (dst : Operand)
  /-- CMK (R306). -/
  | cmk (dst : Operand)
  /-- DMI (R307). -/
  | dmi (dst : Operand)
  /-- MKI (R308). -/
  | mki (dst : Operand)
  /-- CSPS (R309). -/
  | csps (dst : Operand)
  /-- SSPS (R310). -/
  | ssps (dst : Operand)
  /-- SFGMB (R311). -/
  | sfgmb (dst : Operand)
  -- Zero operands (45_zero_operand.md)
  /-- HALT (R321). -/
  | halt
  /-- WAIT (R322). -/
  | wait
  /-- NOP (R323). -/
  | nop
  /-- RST (R324). -/
  | rst
  /-- EXS (R325). -/
  | exs
  /-- RTT (R326). -/
  | rtt
  /-- RTI (R327). -/
  | rti
  /-- BTP (R328). -/
  | btp
  /-- SRG (R329). -/
  | srg
  /-- CRG (R330). -/
  | crg
  /-- TRAPn (R331). -/
  | trapn (n : BitVec 3)
  -- Parameter (46_parameter.md)
  /-- DR (R341). -/
  | dr (offset : BitVec 8)
  /-- DCO (R342). -/
  | dco (offset : BitVec 8)
  /-- DCZ (R343). -/
  | dcz (offset : BitVec 8)
  /-- DVO (R344). -/
  | dvo (offset : BitVec 8)
  /-- DVZ (R345). -/
  | dvz (offset : BitVec 8)
  /-- DZO (R346). -/
  | dzo (offset : BitVec 8)
  /-- DZZ (R347). -/
  | dzz (offset : BitVec 8)
  /-- DSO (R348). -/
  | dso (offset : BitVec 8)
  /-- DSZ (R349). -/
  | dsz (offset : BitVec 8)
  /-- DTAO (R350). -/
  | dtao (offset : BitVec 8)
  /-- DTAZ (R351). -/
  | dtaz (offset : BitVec 8)
  /-- DTBO (R352). -/
  | dtbo (offset : BitVec 8)
  /-- DTBZ (R353). -/
  | dtbz (offset : BitVec 8)
  /-- DTCO (R354). -/
  | dtco (offset : BitVec 8)
  /-- DTCZ (R355). -/
  | dtcz (offset : BitVec 8)
  /-- DGE (R356). -/
  | dge (offset : BitVec 8)
  /-- DLT (R357). -/
  | dlt (offset : BitVec 8)
  /-- DGT (R358). -/
  | dgt (offset : BitVec 8)
  /-- DLE (R359). -/
  | dle (offset : BitVec 8)
  /-- DHI (R360). -/
  | dhi (offset : BitVec 8)
  /-- DLS (R361). -/
  | dls (offset : BitVec 8)
  /-- DHS (R362). -/
  | dhs (offset : BitVec 8)
  /-- DLO (R363). -/
  | dlo (offset : BitVec 8)
  /-- ERC (R365). -/
  | erc (mask : BitVec 7)
  /-- CFO (R366). -/
  | cfo (mask : BitVec 7)
  /-- CFZ (R367). -/
  | cfz (mask : BitVec 7)
  /-- CCC (R368). -/
  | ccc (mask : BitVec 7)
  /-- CNM (R369). -/
  | cnm (level : BitVec 4)
  -- ASTROM (47_astrom.md)
  /-- PFIP (R415). -/
  | pfip (ac1 : AcReg) (opnd : Operand)
  /-- PFIM (R416). -/
  | pfim (ac1 ac2 : AcReg)
  /-- IPFP (R413). -/
  | ipfp (ac1 : AcReg) (opnd : Operand)
  /-- IPFM (R414). -/
  | ipfm (ac1 ac2 : AcReg)
  /-- SMPFP (R398). -/
  | smpfp (ac1 : AcReg) (opnd : Operand)
  /-- SMPFM (R399). -/
  | smpfm (ac1 ac2 : AcReg)
  /-- SMIP (R390). -/
  | smip (ac1 : AcReg) (opnd : Operand)
  /-- SMIM (R391). -/
  | smim (ac1 ac2 : AcReg)
  /-- SUPFP (R400). -/
  | supfp (ac1 : AcReg) (opnd : Operand)
  /-- SUPFM (R401). -/
  | supfm (ac1 ac2 : AcReg)
  /-- SUIP (R392). -/
  | suip (ac1 : AcReg) (opnd : Operand)
  /-- SUIM (R393). -/
  | suim (ac1 ac2 : AcReg)
  /-- MLPFP (R402). -/
  | mlpfp (ac1 : AcReg) (opnd : Operand)
  /-- MLPFM (R403). -/
  | mlpfm (ac1 ac2 : AcReg)
  /-- MLIP (R394). -/
  | mlip (ac1 : AcReg) (opnd : Operand)
  /-- MLIM (R395). -/
  | mlim (ac1 ac2 : AcReg)
  /-- DVPFP (R404). -/
  | dvpfp (ac1 : AcReg) (opnd : Operand)
  /-- DVPFM (R405). -/
  | dvpfm (ac1 ac2 : AcReg)
  /-- DVIP (R396). -/
  | dvip (ac1 : AcReg) (opnd : Operand)
  /-- DVIM (R397). -/
  | dvim (ac1 ac2 : AcReg)
  /-- NGPFP (R407). -/
  | ngpfp (ac1 : AcReg) (opnd : Operand)
  /-- NGPFM (R408). -/
  | ngpfm (ac1 ac2 : AcReg)
  /-- CMPFP (R411). -/
  | cmpfp (ac1 : AcReg) (opnd : Operand)
  /-- CMPFM (R412). -/
  | cmpfm (ac1 ac2 : AcReg)
  /-- CRPF (R419). -/
  | crpf (ac1 : AcReg) (opnd : Operand)
  /-- ABPF (R409). -/
  | abpf (ac1 ac2 : AcReg)
  /-- CRI (R418). -/
  | cri (ac1 : AcReg) (opnd : Operand)
  /-- ABSI (R410). -/
  | absi (ac1 ac2 : AcReg)
  /-- AZPF (R420). -/
  | azpf (ac1 : AcReg) (opnd : Operand)
  /-- NGIN (R406). -/
  | ngin (ac1 ac2 : AcReg)
  /-- AZI (R421). -/
  | azi (ac1 : AcReg) (opnd : Operand)
  /-- CPRGI (R417). -/
  | cprgi (ac1 ac2 : AcReg)
  deriving DecidableEq, Repr

end Sys2Proof
end

