-- ==== Sys2Proof/WellFormed.lean ====
section
/-! DEFINITION. When an instruction and a configuration are well formed (30_encoding.md R130, R131; 00_scope.md R6). -/

namespace Sys2Proof

/-- The operand specifiers an instruction word carries: two, one, one naming a long word, or none
(30_encoding.md R116, R117, R122, R124, R126; 47_astrom.md R387). -/
inductive Shape where
  | two (fnt dst : Operand)
  | one (opnd : Operand)
  | long (opnd : Operand)
  | none
  deriving DecidableEq, Repr

/-- The operand specifiers of an instruction. -/
def Instr.shape : Instr → Shape
  | .add f d | .addb f d | .dac f d | .dacb f d | .sub f d | .subb f d | .dsb f d | .dsbb f d | .cmp f d | .cmpb f d
  | .and f d | .andb f d | .or f d | .orb f d | .msk f d | .mskb f d | .xor f d | .xorb f d | .xnr f d | .xnrb f d
  | .coc f d | .cocb f d | .czc f d | .czcb f d | .mov f d | .movb f d | .exc f d | .excb f d | .djz f d | .jsb f d => .two f d
  | .neg p | .negb p | .inc p | .incb p | .dcr p | .dcrb p | .ict p | .ictb p | .dct p | .dctb p | .cmt p | .cmtb p
  | .stz p | .stzb p | .sto p | .stob p | .abs p | .absb p | .adc p | .adcb p | .sb p | .sbb p | .cpz p | .cpzb p
  | .sxt p | .sxtb p | .sld p | .sldb p | .sdc p | .sdcb p | .rdc p | .rdcb p | .sad p | .sadb p | .rtd p | .rtdb p
  | .sle p | .sleb p | .sec p | .secb p | .recw p | .recb p | .rte p | .rteb p | .swb p | .ret p | .jmp p | .slp p
  | .clp p | .smk p | .cmk p | .dmi p | .mki p | .csps p | .ssps p | .sfgmb p | .ipfp _ p | .smip _ p | .suip _ p
  | .mlip _ p | .dvip _ p | .cri _ p | .azi _ p => .one p
  | .sldl p | .sdcl p | .rdcl p | .sadl p | .rtdl p | .slel p | .secl p | .recl p | .rtel p | .pfip _ p | .smpfp _ p
  | .supfp _ p | .mlpfp _ p | .dvpfp _ p | .ngpfp _ p | .cmpfp _ p | .crpf _ p | .azpf _ p => .long p
  | .halt | .wait | .nop | .rst | .exs | .rtt | .rti | .btp | .srg | .crg | .trapn _ | .dr _ | .dco _ | .dcz _
  | .dvo _ | .dvz _ | .dzo _ | .dzz _ | .dso _ | .dsz _ | .dtao _ | .dtaz _ | .dtbo _ | .dtbz _ | .dtco _ | .dtcz _
  | .dge _ | .dlt _ | .dgt _ | .dle _ | .dhi _ | .dls _ | .dhs _ | .dlo _ | .erc _ | .cfo _ | .cfz _ | .ccc _
  | .cnm _ | .pfim _ _ | .ipfm _ _ | .smpfm _ _ | .smim _ _ | .supfm _ _ | .suim _ _ | .mlpfm _ _ | .mlim _ _
  | .dvpfm _ _ | .dvim _ _ | .ngpfm _ _ | .cmpfm _ _ | .abpf _ _ | .absi _ _ | .ngin _ _ | .cprgi _ _ => .none

/-- The instructions marked (&), which exist in microprogram 1.1 only (00_scope.md R3; 30_encoding.md R131). -/
def Instr.isAmpersand : Instr → Bool
  | .msk _ _ | .mskb _ _ | .xnr _ _ | .xnrb _ _ | .czc _ _ | .czcb _ _ | .exc _ _ | .excb _ _ | .ict _ | .ictb _
  | .dct _ | .dctb _ | .sxt _ | .sxtb _ => true
  | .add _ _ | .addb _ _ | .dac _ _ | .dacb _ _ | .sub _ _ | .subb _ _ | .dsb _ _ | .dsbb _ _ | .cmp _ _ | .cmpb _ _
  | .and _ _ | .andb _ _ | .or _ _ | .orb _ _ | .xor _ _ | .xorb _ _ | .coc _ _ | .cocb _ _ | .mov _ _ | .movb _ _
  | .djz _ _ | .jsb _ _ | .neg _ | .negb _ | .inc _ | .incb _ | .dcr _ | .dcrb _ | .cmt _ | .cmtb _ | .stz _
  | .stzb _ | .sto _ | .stob _ | .abs _ | .absb _ | .adc _ | .adcb _ | .sb _ | .sbb _ | .cpz _ | .cpzb _ | .sldl _
  | .sdcl _ | .rdcl _ | .sadl _ | .rtdl _ | .sld _ | .sldb _ | .sdc _ | .sdcb _ | .rdc _ | .rdcb _ | .sad _
  | .sadb _ | .rtd _ | .rtdb _ | .slel _ | .secl _ | .recl _ | .rtel _ | .sle _ | .sleb _ | .sec _ | .secb _
  | .recw _ | .recb _ | .rte _ | .rteb _ | .swb _ | .ret _ | .jmp _ | .slp _ | .clp _ | .smk _ | .cmk _ | .dmi _
  | .mki _ | .csps _ | .ssps _ | .sfgmb _ | .halt | .wait | .nop | .rst | .exs | .rtt | .rti | .btp | .srg | .crg
  | .trapn _ | .dr _ | .dco _ | .dcz _ | .dvo _ | .dvz _ | .dzo _ | .dzz _ | .dso _ | .dsz _ | .dtao _ | .dtaz _
  | .dtbo _ | .dtbz _ | .dtco _ | .dtcz _ | .dge _ | .dlt _ | .dgt _ | .dle _ | .dhi _ | .dls _ | .dhs _ | .dlo _
  | .erc _ | .cfo _ | .cfz _ | .ccc _ | .cnm _ | .pfip _ _ | .pfim _ _ | .ipfp _ _ | .ipfm _ _ | .smpfp _ _
  | .smpfm _ _ | .smip _ _ | .smim _ _ | .supfp _ _ | .supfm _ _ | .suip _ _ | .suim _ _ | .mlpfp _ _ | .mlpfm _ _
  | .mlip _ _ | .mlim _ _ | .dvpfp _ _ | .dvpfm _ _ | .dvip _ _ | .dvim _ _ | .ngpfp _ _ | .ngpfm _ _ | .cmpfp _ _
  | .cmpfm _ _ | .crpf _ _ | .abpf _ _ | .cri _ _ | .absi _ _ | .azpf _ _ | .ngin _ _ | .azi _ _ | .cprgi _ _ => false

/-- A long word exists only in a register pair declared by RA, RC or RE (40_addressing_modes.md R166). -/
def Operand.isPair : Operand → Bool
  | .direct .ra | .direct .rc | .direct .re => true
  | .direct .rb | .direct .rd | .direct .rf => false
  | .indirect _ | .indexed _ | .indexedIndirect _ => false
  | .spDirect | .autodec | .autoinc | .stackTop => false
  | .immediate | .absolute | .relative | .relativeIndirect => false

/-- The instruction exists in this microprogram (30_encoding.md R131). -/
def Instr.inVersion (c : Config) (i : Instr) : Bool :=
  !(i.isAmpersand && c.ucode == .v10)

/-- A long-word operand names a register pair (30_encoding.md R130). -/
def Instr.longOk (i : Instr) : Bool :=
  match i.shape with
  | .long p => p.isPair
  | .two _ _ | .one _ | .none => true

/-- The instruction is one the decoder of this configuration can read. -/
def Instr.wf (c : Config) (i : Instr) : Bool :=
  i.inVersion c && i.longOk

/-- No bit of the PSW has two fields. -/
def PswLayout.distinct (l : PswLayout) : Bool := decide [l.b3, l.b2, l.b1, l.b0, l.b].Nodup

/-- A legal configuration: `REG_CODE` and `MODE_CODE` give every register and every mode exactly one code
(30_encoding.md R114, R115), `PSW_LAYOUT` gives BASE and B five different bits (10_state.md R30), and every region of
`MEM_MAP` is made of whole words (20_memory.md R71). -/
def Config.wf (c : Config) : Bool :=
  decide (c.regCode.length = 8) &&
  [OpReg.gen .ra, .gen .rb, .gen .rc, .gen .rd, .gen .re, .gen .rf, .sp, .pc].all (fun r => decide (r ∈ c.regCode)) &&
  decide (c.modeCode.length = 4) &&
  [AddrMode.m0, .m1, .m2, .m3].all (fun m => decide (m ∈ c.modeCode)) &&
  c.pswLayout.distinct &&
  c.memMap.all (fun r => decide (r.base % 2 = 0) && decide (r.size % 2 = 0))

end Sys2Proof
end

