-- ==== Sys2Proof/Decode.lean ====
section
/-! DEFINITION. The decoder and the encoder of the instruction word (30_encoding.md sections 2 to 7). The numbers of the
code tables are the operation codes of 30_encoding.md R119, R120, R123, R125 and R127, read as the value of the
instruction word's bits above the operand fields. -/

namespace Sys2Proof

/-- Why a word is no instruction (30_encoding.md R128 to R131). -/
inductive DecodeError where
  /-- No operation code has this pattern (R129 (a) to (f)). -/
  | unassigned
  /-- A code marked (&) under microprogram 1.0 (R129 (g), R131). -/
  | notInMicroprogram10
  /-- A long-word operand that is no register pair (R130). -/
  | longOperand
  /-- Fewer than two bytes were given. -/
  | tooShort
  deriving DecidableEq, Repr

/-! ### Operand specifiers (R113 to R115) -/

/-- The register of a 3-bit code. -/
def Config.regOf (c : Config) (b : BitVec 3) : OpReg := c.regCode.getD b.toNat .pc

/-- The mode of a 2-bit code. -/
def Config.modeOf (c : Config) (b : BitVec 2) : AddrMode := c.modeCode.getD b.toNat .m0

/-- The operand form that a register and a mode select together (R115). -/
def operandOf : OpReg → AddrMode → Operand
  | .gen r, .m0 => .direct r
  | .gen r, .m1 => .indirect r
  | .gen r, .m2 => .indexed r
  | .gen r, .m3 => .indexedIndirect r
  | .sp, .m0 => .spDirect
  | .sp, .m1 => .autodec
  | .sp, .m2 => .autoinc
  | .sp, .m3 => .stackTop
  | .pc, .m0 => .immediate
  | .pc, .m1 => .absolute
  | .pc, .m2 => .relative
  | .pc, .m3 => .relativeIndirect

/-- A 5-bit operand specifier: mode in bits 4-3, register in bits 2-0 (R113). -/
def decodeOperand (c : Config) (b : BitVec 5) : Operand :=
  operandOf (c.regOf (b.extractLsb' 0 3)) (c.modeOf (b.extractLsb' 3 2))

/-- Tabela 4.1 (47_astrom.md R381). -/
def decodeAc (b : BitVec 2) : AcReg :=
  match b.toNat with
  | 0 => .r0
  | 1 => .r1
  | 2 => .r2
  | _ => .r3

/-! ### Code tables -/

/-- Formato A, on bits 15-10 (R119). -/
def codeA : Nat → Option (Operand → Operand → Instr)
  | 36 => some .add
  | 4 => some .addb
  | 37 => some .dac
  | 5 => some .dacb
  | 38 => some .sub
  | 6 => some .subb
  | 39 => some .dsb
  | 7 => some .dsbb
  | 40 => some .cmp
  | 8 => some .cmpb
  | 41 => some .and
  | 9 => some .andb
  | 42 => some .or
  | 10 => some .orb
  | 43 => some .msk
  | 11 => some .mskb
  | 44 => some .xor
  | 12 => some .xorb
  | 45 => some .xnr
  | 13 => some .xnrb
  | 46 => some .coc
  | 14 => some .cocb
  | 47 => some .czc
  | 15 => some .czcb
  | 48 => some .mov
  | 16 => some .movb
  | 49 => some .exc
  | 17 => some .excb
  | 50 => some .djz
  | 51 => some .jsb
  | _ => none

/-- Formato B, on bits 15-5 (R120, R121). -/
def codeB : Nat → Option (Operand → Instr)
  | 1025 => some .neg
  | 1 => some .negb
  | 1026 => some .inc
  | 2 => some .incb
  | 1027 => some .dcr
  | 3 => some .dcrb
  | 1028 => some .ict
  | 4 => some .ictb
  | 1029 => some .dct
  | 5 => some .dctb
  | 1030 => some .cmt
  | 6 => some .cmtb
  | 1031 => some .stz
  | 7 => some .stzb
  | 1032 => some .sto
  | 8 => some .stob
  | 1033 => some .abs
  | 9 => some .absb
  | 1034 => some .adc
  | 10 => some .adcb
  | 1035 => some .sb
  | 11 => some .sbb
  | 1036 => some .cpz
  | 12 => some .cpzb
  | 1037 => some .sxt
  | 13 => some .sxtb
  | 1040 => some .sldl
  | 1041 => some .sdcl
  | 1042 => some .rdcl
  | 1043 => some .sadl
  | 1044 => some .rtdl
  | 1045 => some .sld
  | 21 => some .sldb
  | 1046 => some .sdc
  | 22 => some .sdcb
  | 1047 => some .rdc
  | 23 => some .rdcb
  | 1048 => some .sad
  | 24 => some .sadb
  | 1049 => some .rtd
  | 25 => some .rtdb
  | 1056 => some .slel
  | 1057 => some .secl
  | 1058 => some .recl
  | 1059 => some .rtel
  | 1060 => some .sle
  | 36 => some .sleb
  | 1061 => some .sec
  | 37 => some .secb
  | 1062 => some .recw
  | 38 => some .recb
  | 1063 => some .rte
  | 39 => some .rteb
  | 1067 => some .swb
  | 1072 => some .ret
  | 1073 => some .jmp
  | 1074 => some .slp
  | 1075 => some .clp
  | 1076 => some .smk
  | 1077 => some .cmk
  | 1078 => some .dmi
  | 1079 => some .mki
  | 1080 => some .csps
  | 1081 => some .ssps
  | 58 => some .sfgmb
  | _ => none

/-- Formato C less TRAPn, on the whole word (R123). -/
def codeC : Nat → Option Instr
  | 0x0000 => some .halt
  | 0x0001 => some .wait
  | 0x0002 => some .nop
  | 0x0003 => some .rst
  | 0x8004 => some .exs
  | 0x8005 => some .rtt
  | 0x8007 => some .btp
  | 0x8008 => some .srg
  | 0x8009 => some .crg
  | _ => none

/-- Formato E, the ASTROM P forms, on bits 15-7 (R127). -/
def codeE : Nat → Option (AcReg → Operand → Instr)
  | 272 => some .pfip
  | 273 => some .ipfp
  | 274 => some .smpfp
  | 275 => some .smip
  | 276 => some .supfp
  | 277 => some .suip
  | 278 => some .mlpfp
  | 279 => some .mlip
  | 280 => some .dvpfp
  | 281 => some .dvip
  | 282 => some .ngpfp
  | 283 => some .cmpfp
  | 284 => some .crpf
  | 285 => some .cri
  | 286 => some .azpf
  | 287 => some .azi
  | _ => none

/-- Formato F, the ASTROM M forms, on bits 15-7 (R127). -/
def codeF : Nat → Option (AcReg → AcReg → Instr)
  | 16 => some .pfim
  | 17 => some .ipfm
  | 18 => some .smpfm
  | 19 => some .smim
  | 20 => some .supfm
  | 21 => some .suim
  | 22 => some .mlpfm
  | 23 => some .mlim
  | 24 => some .dvpfm
  | 25 => some .dvim
  | 26 => some .ngpfm
  | 27 => some .cmpfm
  | 28 => some .abpf
  | 29 => some .absi
  | 30 => some .ngin
  | 31 => some .cprgi
  | _ => none

/-- Formato D, on bits 15-8 with the parameter in bits 7-0 (R125, R132, R133). -/
def codeD (p : BitVec 8) : Nat → Option Instr
  | 0x70 => some (.dr p)
  | 0x71 => some (.dco p)
  | 0x72 => some (.dcz p)
  | 0x73 => some (.dvo p)
  | 0x74 => some (.dvz p)
  | 0x75 => some (.dzo p)
  | 0x76 => some (.dzz p)
  | 0x77 => some (.dso p)
  | 0x78 => some (.dsz p)
  | 0xF8 => some (.dtao p)
  | 0xF9 => some (.dtaz p)
  | 0xFA => some (.dtbo p)
  | 0xFB => some (.dtbz p)
  | 0xFC => some (.dtco p)
  | 0xFD => some (.dtcz p)
  | 0xF0 => some (.dge p)
  | 0xF1 => some (.dlt p)
  | 0xF2 => some (.dgt p)
  | 0xF3 => some (.dle p)
  | 0xF4 => some (.dhi p)
  | 0xF5 => some (.dls p)
  | 0x7A => some (.erc (p.extractLsb' 0 7))
  | 0x7B => some (.cfo (p.extractLsb' 0 7))
  | 0x7C => some (.cfz (p.extractLsb' 0 7))
  | 0x7D => some (.ccc (p.extractLsb' 0 7))
  | 0x7E => some (.cnm (p.extractLsb' 0 4))
  | _ => none

/-! ### The decoder (R134) -/

/-- The assigned instruction of a word, before the restrictions of R130 and R131 are looked at. -/
def decodeAssigned (c : Config) (w : Word) : Option Instr :=
  let dst := decodeOperand c (w.extractLsb' 0 5)
  if (w.extractLsb' 12 3).toNat = 7 then
    codeD (w.extractLsb' 0 8) (w.extractLsb' 8 8).toNat
  else if (w.extractLsb' 11 4).toNat = 1 then
    let ac1 := decodeAc (w.extractLsb' 5 2)
    if w.getLsbD 15 then
      (codeE (w.extractLsb' 7 9).toNat).map (fun k => k ac1 dst)
    else
      (codeF (w.extractLsb' 7 9).toNat).map (fun k => k ac1 (decodeAc (w.extractLsb' 0 2)))
  else if (w.extractLsb' 11 4).toNat = 0 then
    if (w.extractLsb' 5 6).toNat = 0 then
      if (w.extractLsb' 3 13).toNat = 0x1003 then some (.trapn (w.extractLsb' 0 3)) else codeC w.toNat
    else
      (codeB (w.extractLsb' 5 11).toNat).map (fun k => k dst)
  else
    (codeA (w.extractLsb' 10 6).toNat).map (fun k => k (decodeOperand c (w.extractLsb' 5 5)) dst)

/-- The instruction of a word, or why there is none (R128 to R134). -/
def decode (c : Config) (w : Word) : Except DecodeError Instr :=
  match decodeAssigned c w with
  | none => .error .unassigned
  | some i =>
    if !i.inVersion c then .error .notInMicroprogram10
    else if !i.longOk then .error .longOperand
    else .ok i

/-- The instruction at the head of a list of bytes as they lie in memory, low byte first (20_memory.md R71), and the
bytes after its instruction word. -/
def decodeBytes (c : Config) : List Byte → Except DecodeError (Instr × List Byte)
  | lo :: hi :: rest => (decode c (hi ++ lo)).map (fun i => (i, rest))
  | [_] | [] => .error .tooShort

/-- The instruction the decoder reads from the first `nbits` bits of `w`, numbered as spec/opcode_table.json numbers
them: bit 0 is the least significant bit of the instruction word. -/
def decodeTableWord (nbits w : Nat) : Option Instr :=
  let v := w % 2 ^ nbits
  match decodeBytes defaultConfig ((List.range 6).map (fun k => BitVec.ofNat 8 (v / 2 ^ (8 * k)))) with
  | .ok (i, _) => some i
  | .error _ => none

/-! ### Instruction length (R111) -/

/-- The extension words of an operand: modes 2 and 3 of RA-RF and all four modes of PC have one (R111). -/
def Operand.extWords : Operand → Nat
  | .indexed _ | .indexedIndirect _ | .immediate | .absolute | .relative | .relativeIndirect => 1
  | .direct _ | .indirect _ | .spDirect | .autodec | .autoinc | .stackTop => 0

/-- The extension words that follow the instruction word (R111). -/
def Instr.extWords (i : Instr) : Nat :=
  match i.shape with
  | .two f d => f.extWords + d.extWords
  | .one p => p.extWords
  | .long p => p.extWords
  | .none => 0

/-! ### The encoder -/

/-- The 3-bit code of a register. -/
def Config.regBits (c : Config) (r : OpReg) : BitVec 3 := BitVec.ofNat 3 (c.regCode.idxOf r)

/-- The 2-bit code of a mode. -/
def Config.modeBits (c : Config) (m : AddrMode) : BitVec 2 := BitVec.ofNat 2 (c.modeCode.idxOf m)

/-- The register and the mode of an operand form (R115). -/
def Operand.parts : Operand → OpReg × AddrMode
  | .direct r => (.gen r, .m0)
  | .indirect r => (.gen r, .m1)
  | .indexed r => (.gen r, .m2)
  | .indexedIndirect r => (.gen r, .m3)
  | .spDirect => (.sp, .m0)
  | .autodec => (.sp, .m1)
  | .autoinc => (.sp, .m2)
  | .stackTop => (.sp, .m3)
  | .immediate => (.pc, .m0)
  | .absolute => (.pc, .m1)
  | .relative => (.pc, .m2)
  | .relativeIndirect => (.pc, .m3)

/-- The 5-bit specifier of an operand (R113). -/
def encodeOperand (c : Config) (o : Operand) : BitVec 5 := c.modeBits o.parts.2 ++ c.regBits o.parts.1

/-- The 2-bit code of an ASTROM register (47_astrom.md R381). -/
def encodeAc : AcReg → BitVec 2
  | .r0 => 0
  | .r1 => 1
  | .r2 => 2
  | .r3 => 3

/-- Formato A: bits 15-10, source, destination (R116). -/
def formA (c : Config) (hi : BitVec 6) (f d : Operand) : Word := hi ++ encodeOperand c f ++ encodeOperand c d

/-- Formato B: bits 15-5, destination (R117). -/
def formB (c : Config) (hi : BitVec 11) (d : Operand) : Word := hi ++ encodeOperand c d

/-- Formato D: bits 15-8, parameter (R124). -/
def formD (op : BitVec 8) (p : BitVec 8) : Word := op ++ p

/-- Formato E: bits 15-7, AC1, ASTROP operand (R126). -/
def formE (c : Config) (hi : BitVec 9) (a : AcReg) (p : Operand) : Word := hi ++ encodeAc a ++ encodeOperand c p

/-- Formato F: bits 15-7, AC1, don't-care bits encoded 0, AC2 (R126, R132). -/
def formF (hi : BitVec 9) (a b : AcReg) : Word := hi ++ encodeAc a ++ (0 : BitVec 3) ++ encodeAc b

/-- The instruction word of an instruction; don't-care bits are 0 (R132; log 32). -/
def encode (c : Config) : Instr → Word
  | .add f d => formA c 36 f d
  | .addb f d => formA c 4 f d
  | .dac f d => formA c 37 f d
  | .dacb f d => formA c 5 f d
  | .sub f d => formA c 38 f d
  | .subb f d => formA c 6 f d
  | .dsb f d => formA c 39 f d
  | .dsbb f d => formA c 7 f d
  | .cmp f d => formA c 40 f d
  | .cmpb f d => formA c 8 f d
  | .and f d => formA c 41 f d
  | .andb f d => formA c 9 f d
  | .or f d => formA c 42 f d
  | .orb f d => formA c 10 f d
  | .msk f d => formA c 43 f d
  | .mskb f d => formA c 11 f d
  | .xor f d => formA c 44 f d
  | .xorb f d => formA c 12 f d
  | .xnr f d => formA c 45 f d
  | .xnrb f d => formA c 13 f d
  | .coc f d => formA c 46 f d
  | .cocb f d => formA c 14 f d
  | .czc f d => formA c 47 f d
  | .czcb f d => formA c 15 f d
  | .mov f d => formA c 48 f d
  | .movb f d => formA c 16 f d
  | .exc f d => formA c 49 f d
  | .excb f d => formA c 17 f d
  | .djz f d => formA c 50 f d
  | .jsb f d => formA c 51 f d
  | .neg d => formB c 1025 d
  | .negb d => formB c 1 d
  | .inc d => formB c 1026 d
  | .incb d => formB c 2 d
  | .dcr d => formB c 1027 d
  | .dcrb d => formB c 3 d
  | .ict d => formB c 1028 d
  | .ictb d => formB c 4 d
  | .dct d => formB c 1029 d
  | .dctb d => formB c 5 d
  | .cmt d => formB c 1030 d
  | .cmtb d => formB c 6 d
  | .stz d => formB c 1031 d
  | .stzb d => formB c 7 d
  | .sto d => formB c 1032 d
  | .stob d => formB c 8 d
  | .abs d => formB c 1033 d
  | .absb d => formB c 9 d
  | .adc d => formB c 1034 d
  | .adcb d => formB c 10 d
  | .sb d => formB c 1035 d
  | .sbb d => formB c 11 d
  | .cpz d => formB c 1036 d
  | .cpzb d => formB c 12 d
  | .sxt d => formB c 1037 d
  | .sxtb d => formB c 13 d
  | .sldl d => formB c 1040 d
  | .sdcl d => formB c 1041 d
  | .rdcl d => formB c 1042 d
  | .sadl d => formB c 1043 d
  | .rtdl d => formB c 1044 d
  | .sld d => formB c 1045 d
  | .sldb d => formB c 21 d
  | .sdc d => formB c 1046 d
  | .sdcb d => formB c 22 d
  | .rdc d => formB c 1047 d
  | .rdcb d => formB c 23 d
  | .sad d => formB c 1048 d
  | .sadb d => formB c 24 d
  | .rtd d => formB c 1049 d
  | .rtdb d => formB c 25 d
  | .slel d => formB c 1056 d
  | .secl d => formB c 1057 d
  | .recl d => formB c 1058 d
  | .rtel d => formB c 1059 d
  | .sle d => formB c 1060 d
  | .sleb d => formB c 36 d
  | .sec d => formB c 1061 d
  | .secb d => formB c 37 d
  | .recw d => formB c 1062 d
  | .recb d => formB c 38 d
  | .rte d => formB c 1063 d
  | .rteb d => formB c 39 d
  | .swb d => formB c 1067 d
  | .ret d => formB c 1072 d
  | .jmp d => formB c 1073 d
  | .slp d => formB c 1074 d
  | .clp d => formB c 1075 d
  | .smk d => formB c 1076 d
  | .cmk d => formB c 1077 d
  | .dmi d => formB c 1078 d
  | .mki d => formB c 1079 d
  | .csps d => formB c 1080 d
  | .ssps d => formB c 1081 d
  | .sfgmb d => formB c 58 d
  | .halt => 0x0000
  | .wait => 0x0001
  | .nop => 0x0002
  | .rst => 0x0003
  | .exs => 0x8004
  | .rtt => 0x8005
  | .rti => 0x8005
  | .btp => 0x8007
  | .srg => 0x8008
  | .crg => 0x8009
  | .trapn n => (0x1003 : BitVec 13) ++ n
  | .dr o => formD 0x70 o
  | .dco o => formD 0x71 o
  | .dcz o => formD 0x72 o
  | .dvo o => formD 0x73 o
  | .dvz o => formD 0x74 o
  | .dzo o => formD 0x75 o
  | .dzz o => formD 0x76 o
  | .dso o => formD 0x77 o
  | .dsz o => formD 0x78 o
  | .dtao o => formD 0xF8 o
  | .dtaz o => formD 0xF9 o
  | .dtbo o => formD 0xFA o
  | .dtbz o => formD 0xFB o
  | .dtco o => formD 0xFC o
  | .dtcz o => formD 0xFD o
  | .dge o => formD 0xF0 o
  | .dlt o => formD 0xF1 o
  | .dgt o => formD 0xF2 o
  | .dle o => formD 0xF3 o
  | .dhi o => formD 0xF4 o
  | .dls o => formD 0xF5 o
  | .dhs o => formD 0x72 o
  | .dlo o => formD 0x71 o
  | .erc k => formD 0x7A ((0 : BitVec 1) ++ k)
  | .cfo k => formD 0x7B ((0 : BitVec 1) ++ k)
  | .cfz k => formD 0x7C ((0 : BitVec 1) ++ k)
  | .ccc k => formD 0x7D ((0 : BitVec 1) ++ k)
  | .cnm l => formD 0x7E ((0 : BitVec 4) ++ l)
  | .pfip a p => formE c 272 a p
  | .pfim a b => formF 16 a b
  | .ipfp a p => formE c 273 a p
  | .ipfm a b => formF 17 a b
  | .smpfp a p => formE c 274 a p
  | .smpfm a b => formF 18 a b
  | .smip a p => formE c 275 a p
  | .smim a b => formF 19 a b
  | .supfp a p => formE c 276 a p
  | .supfm a b => formF 20 a b
  | .suip a p => formE c 277 a p
  | .suim a b => formF 21 a b
  | .mlpfp a p => formE c 278 a p
  | .mlpfm a b => formF 22 a b
  | .mlip a p => formE c 279 a p
  | .mlim a b => formF 23 a b
  | .dvpfp a p => formE c 280 a p
  | .dvpfm a b => formF 24 a b
  | .dvip a p => formE c 281 a p
  | .dvim a b => formF 25 a b
  | .ngpfp a p => formE c 282 a p
  | .ngpfm a b => formF 26 a b
  | .cmpfp a p => formE c 283 a p
  | .cmpfm a b => formF 27 a b
  | .crpf a p => formE c 284 a p
  | .abpf a b => formF 28 a b
  | .cri a p => formE c 285 a p
  | .absi a b => formF 29 a b
  | .azpf a p => formE c 286 a p
  | .ngin a b => formF 30 a b
  | .azi a p => formE c 287 a p
  | .cprgi a b => formF 31 a b

/-- The instruction the decoder gives for the words of `i`: the core name of a second mnemonic (log 31). -/
def Instr.canonical (i : Instr) : Instr :=
  match i with
  | .rti => .rtt
  | .dhs o => .dcz o
  | .dlo o => .dco o
  | j => j

end Sys2Proof
end

