-- ==== Sys2Proof/Machine/State.lean ====
section
/-! DEFINITION. The state of the machine (10_state.md), the host inputs it reads and the ways a step can stop. -/

namespace Sys2Proof.Machine

/-- The stops of the model itself. Every trap of the spec is an exception the machine takes, not a fault. -/
inductive Fault where
  /-- Raised by `raiseTrap` and `interruptLoop` when more entries follow one another than the system stack has room
  for. No state reaches it: every entry lowers SPS by four and an entry below LP stops the CPU in HALT
  (60_exceptions.md R452, R453; log 14). Safe. -/
  | entryChain
  deriving DecidableEq, Repr

/-- What the model refuses to run. -/
inductive Refusal where
  /-- Raised by an arm of `exec` whose instruction has no meaning yet. Safe. -/
  | notModelled (mnemonic : String)
  /-- Raised by `busWrite`: a write to an address that `MEM_MAP` marks read-only, which the spec refuses
  (20_memory.md R85; 93_implementation_defined.md U21; log 27). Safe. -/
  | readOnlyWrite
  deriving DecidableEq, Repr

/-- The processor states (10_state.md R34). -/
inductive RunState where
  | run | halt | wait
  deriving DecidableEq, Repr

/-- Why an instruction or an entry is abandoned in its middle. -/
inductive Abort where
  /-- A trap is raised (00_scope.md R14). -/
  | trap (t : Trap)
  /-- A system-stack access failed: the CPU stops in HALT (20_memory.md R81). -/
  | halt
  /-- The model does not define the run. -/
  | refuse (r : Refusal)
  deriving DecidableEq, Repr

/-- The registers the panel can change in HALT (60_exceptions.md R468). -/
inductive PanelReg where
  | ra | rb | rc | rd | re | rf | sp | pc | sps | lp | imk | psw
  deriving DecidableEq, Repr

/-- One edit of `PanelEdit` (60_exceptions.md R468, R470). -/
inductive PanelEdit where
  | reg (r : PanelReg) (v : Word)
  | mem (pa : Word) (v : Byte)
  deriving DecidableEq, Repr

/-- The host inputs of one step (00_scope.md R6; logs 24 and 29). -/
structure Inputs where
  /-- `PI`: the sixteen request lines (10_state.md R40). -/
  pi : Word
  /-- The request lines whose device withdraws its request when it sees `IntAck` (60_exceptions.md R461). -/
  dropOnAck : Word
  /-- `UPFOK` (10_state.md R37). -/
  upfok : Bool
  /-- `PanelRESET`, and power-up (70_reset_and_hazards.md R500). -/
  reset : Bool
  /-- `PanelPARE` (60_exceptions.md R470). -/
  pare : Bool
  /-- `PanelEXECUTE` with both switches at LIVRE. -/
  execute : Bool
  /-- `PanelEXECUTE` with the switch at PASSO A PASSO. -/
  stepOne : Bool
  /-- `PanelEdit`. -/
  edits : List PanelEdit
  deriving DecidableEq, Repr

/-- What the CPU says to the units on the bus (20_memory.md R85; 60_exceptions.md R461; 70_reset_and_hazards.md R501).
-/
inductive BusEvent where
  /-- `DevRead(pa, n)`; `wide` is n = 2. -/
  | devRead (pa : Word) (wide : Bool)
  /-- `DevWrite(pa, n, v)`. -/
  | devWrite (pa : Word) (wide : Bool) (v : Word)
  /-- INI: `DevReset` of every device. -/
  | devReset
  /-- `IntAck(n)`. -/
  | intAck (n : Nat)
  deriving DecidableEq, Repr

/-- Memory: the bytes that are not zero, by rising address (20_memory.md R70; `Memory.wf`). -/
abbrev Memory := List Host.Cell

/-- Everything the spec gives the machine, and the model's own fields (INVENTORY.md). -/
structure State where
  /-- RA (10_state.md R21). -/
  ra : Word
  /-- RB. -/
  rb : Word
  /-- RC. -/
  rc : Word
  /-- RD. -/
  rd : Word
  /-- RE. -/
  re : Word
  /-- RF. -/
  rf : Word
  /-- The program stack pointer (10_state.md R26). -/
  sp : Word
  /-- The program counter (10_state.md R28). -/
  pc : Word
  /-- The system stack pointer (10_state.md R27). -/
  sps : Word
  /-- The stack limit (10_state.md R29). -/
  lp : Word
  /-- MK, the interrupt mask (10_state.md R32). -/
  imk : Word
  /-- The processor status word (10_state.md R30). -/
  psw : Word
  /-- RUN, HALT or WAIT (10_state.md R34). -/
  run : RunState
  /-- The ASTROM registers (10_state.md R36). -/
  m : AstromRegs
  /-- The ASTROM result codes (10_state.md R37). -/
  mf : AstromCodes
  /-- `bp_armed` (10_state.md R41). -/
  bpArmed : Bool
  /-- Memory, by physical address (20_memory.md R70). -/
  mem : Memory
  /-- The named parameters (00_scope.md R6). -/
  cfg : Config
  /-- The host inputs of this step (log 29). -/
  inp : Inputs
  /-- The host inputs of the steps to come (log 29). -/
  script : List Inputs
  /-- The ADMP memory edits before each bus cycle to come (20_memory.md R87; log 13). -/
  admp : List (List Host.Cell)
  /-- Old contents of bytes of the next two words of the instruction stream that the last instruction stored to
  (20_memory.md R91; log 7). -/
  stale : List Host.Cell
  /-- The bytes that the program's stores of the instruction in progress wrote, oldest first, each with its contents
  before the store (20_memory.md R91; log 7). -/
  stored : List Host.Cell
  /-- The instruction in progress is exempt from the program base (20_memory.md R78 c); log 6). -/
  noBase : Bool
  /-- What the CPU said to the devices, newest first (log 33). -/
  events : List BusEvent
  /-- The number of free values drawn so far (log 33). -/
  freeCount : Nat
  deriving DecidableEq, Repr

/-- No request, ASTROM on, nothing pressed (log 29). -/
def quietInputs : Inputs where
  pi := 0
  dropOnAck := 0xFFFF
  upfok := true
  reset := false
  pare := false
  execute := false
  stepOne := false
  edits := []

/-- The machine right after a reset at power-up (10_state.md R43; 70_reset_and_hazards.md R501). The values no rule
states are those of logs 25 and 26; PSW and PC are the words at 0xFF80 and 0xFF82 of the memory below. -/
def State.reset : State where
  ra := 0
  rb := 0
  rc := 0
  rd := 0
  re := 0
  rf := 0
  sp := 0xF700
  pc := 0
  sps := 0xF800
  lp := 0xF600
  imk := 0
  psw := 0
  run := .halt
  m := ⟨0, 0, 0, 0⟩
  mf := ⟨false, false, false, false, false, false⟩
  bpArmed := false
  mem := []
  cfg := defaultConfig
  inp := quietInputs
  script := []
  admp := []
  stale := []
  stored := []
  noBase := false
  events := []
  freeCount := 0

/-- A computation on the state that can be abandoned; what was already done stays done (40_addressing_modes.md R171). -/
abbrev M := EStateM Abort State

/-- What an instruction or a step answers. -/
abbrev Result := Host.Outcome State Fault Refusal

end Sys2Proof.Machine
end

