-- ==== Sys2Proof/Machine/Flags.lean ====
section
/-! DEFINITION. The processor status word (10_state.md R30) and every result and flag computation of the ASTROP
instructions (00_scope.md R15; 41_two_operand.md; 42_one_operand_arith.md; 43_shift_rotate.md; 46_parameter.md).
A computation takes the operands and the PSW and gives the result and the new PSW. -/

namespace Sys2Proof.Machine

/-! ### Fields of the PSW (10_state.md R30; log 2) -/

/-- The bit of the PSW at a place that `PSW_LAYOUT` may give to BASE or B. -/
def pswBitAt (p : Word) : PswBit → Bool
  | .bit15 => p.getLsbD 15
  | .bit14 => p.getLsbD 14
  | .bit13 => p.getLsbD 13
  | .bit12 => p.getLsbD 12
  | .bit7 => p.getLsbD 7

/-- PSW.BASE = B3 B2 B1 B0, by default bits 15-12. -/
def pswBase (l : PswLayout) (p : Word) : BitVec 4 :=
  BitVec.ofBool (pswBitAt p l.b3) ++ BitVec.ofBool (pswBitAt p l.b2) ++ BitVec.ofBool (pswBitAt p l.b1) ++
    BitVec.ofBool (pswBitAt p l.b0)
/-- PSW.LEVEL, bits 11-8. -/
def pswLevel (p : Word) : BitVec 4 := p.extractLsb' 8 4
/-- PSW.B, by default bit 7. -/
def pswB (l : PswLayout) (p : Word) : Bool := pswBitAt p l.b
/-- PSW.T1, bit 6. -/
def pswT1 (p : Word) : Bool := p.getLsbD 6
/-- PSW.T2, bit 5. -/
def pswT2 (p : Word) : Bool := p.getLsbD 5
/-- PSW.T3, bit 4. -/
def pswT3 (p : Word) : Bool := p.getLsbD 4
/-- PSW.C, bit 3. -/
def pswC (p : Word) : Bool := p.getLsbD 3
/-- PSW.V, bit 2. -/
def pswV (p : Word) : Bool := p.getLsbD 2
/-- PSW.Z, bit 1. -/
def pswZ (p : Word) : Bool := p.getLsbD 1
/-- PSW.S, bit 0. -/
def pswS (p : Word) : Bool := p.getLsbD 0

/-- The PSW with C, V, Z and S replaced; bits 15-4 stay (10_state.md R44). -/
def withCVZS (p : Word) (c v z s : Bool) : Word :=
  p.extractLsb' 4 12 ++ BitVec.ofBool c ++ BitVec.ofBool v ++ BitVec.ofBool z ++ BitVec.ofBool s

/-- The PSW with V, Z and S replaced; C stays. -/
def withVZS (p : Word) (v z s : Bool) : Word := withCVZS p (pswC p) v z s

/-- The PSW with bits 6-0, the seven condition codes, replaced (46_parameter.md R364). -/
def withCodes (p : Word) (k : BitVec 7) : Word := p.extractLsb' 7 9 ++ k

/-- The PSW with LEVEL replaced (46_parameter.md R369). -/
def withLevel (p : Word) (l : BitVec 4) : Word := p.extractLsb' 12 4 ++ l ++ p.extractLsb' 0 8

/-! ### `AddFlags` (00_scope.md R15) -/

/-- The carry out of bit N-1 of a + b + cin. -/
def carryOut {n : Nat} (a b : BitVec n) (cin : Bool) : Bool := decide (2 ^ n ≤ a.toNat + b.toNat + cin.toNat)

/-- The sum a + b + cin modulo 2^N. -/
def addSum {n : Nat} (a b : BitVec n) (cin : Bool) : BitVec n := BitVec.ofNat n (a.toNat + b.toNat + cin.toNat)

/-- Signed overflow of that sum: equal signs of the operands, the other sign in the result. -/
def addOverflow {n : Nat} (a b : BitVec n) (cin : Bool) : Bool := a.msb == b.msb && (addSum a b cin).msb != a.msb

/-- The result of a + b + cin with C = co, V = ov, Z and S. -/
def addResult {n : Nat} (a b : BitVec n) (cin : Bool) (p : Word) : BitVec n × Word :=
  let r := addSum a b cin
  (r, withCVZS p (carryOut a b cin) (addOverflow a b cin) (r == 0) r.msb)

/-- The same with C = not co: a subtraction (41_two_operand.md R217). -/
def subResult {n : Nat} (a b : BitVec n) (cin : Bool) (p : Word) : BitVec n × Word :=
  let r := addSum a b cin
  (r, withCVZS p (!carryOut a b cin) (addOverflow a b cin) (r == 0) r.msb)

/-- A logic result: C stays, V = 0, Z and S by the result (41_two_operand.md R206). -/
def logicResult {n : Nat} (r : BitVec n) (p : Word) : BitVec n × Word := (r, withVZS p false (r == 0) r.msb)

/-- MIN_N (00_scope.md R10). -/
def minSigned (n : Nat) : BitVec n := BitVec.ofNat n (2 ^ (n - 1))

/-- MAX_N (00_scope.md R10). -/
def maxSigned (n : Nat) : BitVec n := BitVec.ofNat n (2 ^ (n - 1) - 1)

/-! ### Two operands (41_two_operand.md): source `s`, destination `d` -/

/-- ADD (R201). -/
def aluAdd {n : Nat} (s d : BitVec n) (p : Word) : BitVec n × Word := addResult s d false p
/-- DAC (R202). -/
def aluDac {n : Nat} (s d : BitVec n) (p : Word) : BitVec n × Word := addResult s d (pswC p) p
/-- SUB (R203). -/
def aluSub {n : Nat} (s d : BitVec n) (p : Word) : BitVec n × Word := subResult d (~~~s) true p
/-- DSB (R204). -/
def aluDsb {n : Nat} (s d : BitVec n) (p : Word) : BitVec n × Word := subResult d (~~~s) (!pswC p) p
/-- CMP (R205): source minus destination. -/
def aluCmp {n : Nat} (s d : BitVec n) (p : Word) : BitVec n × Word := subResult s (~~~d) true p
/-- AND (R206). -/
def aluAnd {n : Nat} (s d : BitVec n) (p : Word) : BitVec n × Word := logicResult (s &&& d) p
/-- OR (R207). -/
def aluOr {n : Nat} (s d : BitVec n) (p : Word) : BitVec n × Word := logicResult (s ||| d) p
/-- MSK (R208). -/
def aluMsk {n : Nat} (s d : BitVec n) (p : Word) : BitVec n × Word := logicResult (~~~s &&& d) p
/-- XOR (R209). -/
def aluXor {n : Nat} (s d : BitVec n) (p : Word) : BitVec n × Word := logicResult (s ^^^ d) p
/-- XNR (R210). -/
def aluXnr {n : Nat} (s d : BitVec n) (p : Word) : BitVec n × Word := logicResult (~~~(s ^^^ d)) p
/-- COC (R211). -/
def aluCoc {n : Nat} (s d : BitVec n) (p : Word) : BitVec n × Word := logicResult ((s &&& d) ^^^ s) p
/-- CZC (R212). -/
def aluCzc {n : Nat} (s d : BitVec n) (p : Word) : BitVec n × Word := logicResult ((s ||| d) ^^^ s) p

/-! ### One operand (42_one_operand_arith.md) -/

/-- NEG (R231). -/
def aluNeg {n : Nat} (d : BitVec n) (p : Word) : BitVec n × Word :=
  let r := addSum (~~~d) 0 true
  (r, withCVZS p (!carryOut (~~~d) 0 true) (r == minSigned n) (r == 0) r.msb)
/-- INC (R232). -/
def aluInc {n : Nat} (d : BitVec n) (p : Word) : BitVec n × Word :=
  let r := d + 1
  (r, withVZS p (d == maxSigned n) (r == 0) r.msb)
/-- DCR (R233). -/
def aluDcr {n : Nat} (d : BitVec n) (p : Word) : BitVec n × Word :=
  let r := d - 1
  (r, withVZS p (d == minSigned n) (r == 0) r.msb)
/-- ICT (R234). -/
def aluIct {n : Nat} (d : BitVec n) (p : Word) : BitVec n × Word :=
  let r := addSum d 2 false
  (r, withVZS p (addOverflow d 2 false) (r == 0) r.msb)
/-- DCT (R235). -/
def aluDct {n : Nat} (d : BitVec n) (p : Word) : BitVec n × Word :=
  let r := addSum d (~~~2) true
  (r, withVZS p (addOverflow d (~~~2) true) (r == 0) r.msb)
/-- CMT (R236). -/
def aluCmt {n : Nat} (d : BitVec n) (p : Word) : BitVec n × Word := logicResult (~~~d) p
/-- STZ (R237). -/
def aluStz {n : Nat} (p : Word) : BitVec n × Word := (0, withVZS p false true false)
/-- STO (R238). -/
def aluSto {n : Nat} (p : Word) : BitVec n × Word := (BitVec.allOnes n, withVZS p false false true)
/-- ABS (R239). -/
def aluAbs {n : Nat} (d : BitVec n) (p : Word) : BitVec n × Word :=
  (if d.msb then ~~~d + 1 else d, withCVZS p false (d == minSigned n) (d == 0) (d == minSigned n))
/-- ADC (R240). -/
def aluAdc {n : Nat} (d : BitVec n) (p : Word) : BitVec n × Word := addResult d 0 (pswC p) p
/-- SB (R241). -/
def aluSb {n : Nat} (d : BitVec n) (p : Word) : BitVec n × Word := subResult d (BitVec.allOnes n) (!pswC p) p
/-- CPZ (R242). -/
def aluCpz {n : Nat} (d : BitVec n) (p : Word) : BitVec n × Word := (d, withCVZS p false false (d == 0) d.msb)
/-- SXT (R243). -/
def aluSxt {n : Nat} (p : Word) : BitVec n × Word :=
  (if pswS p then BitVec.allOnes n else 0, withVZS p false (!pswS p) (pswS p))
/-- SWB (R244). -/
def aluSwb (d : Word) (p : Word) : Word × Word := logicResult (d.extractLsb' 0 8 ++ d.extractLsb' 8 8) p
/-- The decrement inside DJZ (41_two_operand.md R215). -/
def aluDjz (s : Word) (p : Word) : Word × Word :=
  let r := s - 1
  (r, withVZS p (s == 0x8000) (r == 0) r.msb)

/-! ### Shifts and rotates by one bit (43_shift_rotate.md) -/

/-- One bit to the right; `b` enters at the most significant bit. -/
def shiftRight {n : Nat} (b : Bool) (d : BitVec n) : BitVec n := (d >>> 1) ||| (BitVec.ofBool b).setWidth n <<< (n - 1)

/-- One bit to the left; `b` enters at the least significant bit. -/
def shiftLeft {n : Nat} (b : Bool) (d : BitVec n) : BitVec n := (d <<< 1) ||| (BitVec.ofBool b).setWidth n

/-- What a shift or rotate does: the shifted value and the new C. -/
abbrev ShiftRule (n : Nat) := BitVec n → Bool → BitVec n × Bool

/-- SLD, SLDL (R262, R267). -/
def shSld {n : Nat} : ShiftRule n := fun d c => (shiftRight false d, c)
/-- SDC, SDCL (R263, R268). -/
def shSdc {n : Nat} : ShiftRule n := fun d c => (shiftRight c d, false)
/-- RDC, RDCL (R264, R269). -/
def shRdc {n : Nat} : ShiftRule n := fun d c => (shiftRight c d, d.getLsbD 0)
/-- SAD, SADL (R265, R270). -/
def shSad {n : Nat} : ShiftRule n := fun d c => (shiftRight d.msb d, c)
/-- RTD, RTDL (R266, R271). -/
def shRtd {n : Nat} : ShiftRule n := fun d c => (shiftRight (d.getLsbD 0) d, c)
/-- SLE, SLEL (R272, R276). -/
def shSle {n : Nat} : ShiftRule n := fun d c => (shiftLeft false d, c)
/-- SEC, SECL (R273, R277). -/
def shSec {n : Nat} : ShiftRule n := fun d _ => (shiftLeft false d, d.msb)
/-- REC, RECL (R274, R278). -/
def shRec {n : Nat} : ShiftRule n := fun d c => (shiftLeft c d, d.msb)
/-- RTE, RTEL (R275, R279). -/
def shRte {n : Nat} : ShiftRule n := fun d c => (shiftLeft d.msb d, c)

/-- Flags of a byte or word shift (R260). -/
def aluShift {n : Nat} (f : ShiftRule n) (d : BitVec n) (p : Word) : BitVec n × Word :=
  let r := f d (pswC p)
  (r.1, withCVZS p r.2 false (r.1 == 0) r.1.msb)

/-- Flags of a long shift: Z looks at the high word only (R261). -/
def aluLongShift (f : ShiftRule 32) (d : Long) (p : Word) : Long × Word :=
  let r := f d (pswC p)
  (r.1, withCVZS p r.2 false (r.1.extractLsb' 16 16 == 0) r.1.msb)

/-! ### Branch conditions (46_parameter.md R341 to R363) -/

/-- The target of a taken branch: PC after the fetch + 2 x offset (R340). -/
def branchTarget (pc : Word) (off : BitVec 8) : Word := pc + 2 * off.signExtend 16

/-- DGE (R356). -/
def condGe (p : Word) : Bool := pswS p == pswV p
/-- DLT (R357). -/
def condLt (p : Word) : Bool := pswS p != pswV p
/-- DGT (R358). -/
def condGt (p : Word) : Bool := !(pswZ p || (pswS p != pswV p))
/-- DLE (R359). -/
def condLe (p : Word) : Bool := pswZ p || (pswS p != pswV p)
/-- DHI (R360). -/
def condHi (p : Word) : Bool := !(pswC p || pswZ p)
/-- DLS (R361). -/
def condLs (p : Word) : Bool := pswC p || pswZ p

end Sys2Proof.Machine
end

