-- ==== Sys2Proof/Machine/Memory.lean ====
section
/-! DEFINITION. Memory as a byte array (20_memory.md R70 to R73). An address that is not listed reads as 0
(DESIGN CHOICE, log 26); the list is kept rising with no zero byte in it, so that equal memories are equal lists. -/

namespace Sys2Proof.Machine

/-- The byte at a physical address. -/
def Memory.readByte : Memory → Nat → Byte
  | [], _ => 0#8
  | (b, v) :: rest, a => if b = a then v else Memory.readByte rest a

/-- Store one byte, keeping the canonical form. -/
def Memory.writeByte : Memory → Nat → Byte → Memory
  | [], a, x => if x = 0#8 then [] else [(a, x)]
  | (b, v) :: rest, a, x =>
    if a < b then (if x = 0#8 then (b, v) :: rest else (a, x) :: (b, v) :: rest)
    else if b = a then (if x = 0#8 then rest else (a, x) :: rest)
    else (b, v) :: Memory.writeByte rest a x

/-- The cells from address `lo` on are rising, inside the address space and not zero. -/
def Memory.wfFrom : Nat → Memory → Bool
  | _, [] => true
  | lo, (a, v) :: rest => decide (lo ≤ a) && decide (a < 65536) && decide (v ≠ 0#8) && Memory.wfFrom (a + 1) rest

/-- The canonical form of a memory. -/
def Memory.wf (m : Memory) : Bool := Memory.wfFrom 0 m

/-- A byte, zero-extended, or a word with its low byte at the lower address (20_memory.md R71, R72, R94). -/
def Memory.read (m : Memory) (wide : Bool) (pa : Word) : Word :=
  if wide then m.readByte (pa + 1).toNat ++ m.readByte pa.toNat
  else (m.readByte pa.toNat).setWidth 16

/-- Store the low byte of `v`, or both its bytes, low byte at the lower address (20_memory.md R71, R72, R94). -/
def Memory.write (m : Memory) (wide : Bool) (pa : Word) (v : Word) : Memory :=
  if wide then (m.writeByte pa.toNat (v.extractLsb' 0 8)).writeByte (pa + 1).toNat (v.extractLsb' 8 8)
  else m.writeByte pa.toNat (v.extractLsb' 0 8)

/-- Store a list of cells at addresses where `ok` allows it; addresses are taken modulo 65536. -/
def Memory.writeCells (m : Memory) (ok : Nat → Bool) : List Host.Cell → Memory
  | [] => m
  | (a, v) :: rest =>
    Memory.writeCells (if ok (a % 65536) then m.writeByte (a % 65536) v else m) ok rest

end Sys2Proof.Machine
end

