-- ==== Sys2Proof/Machine/Ops.lean ====
section
/-! DEFINITION. The named operations on registers, bus, memory and stacks (00_scope.md R11, R12; 20_memory.md), taking
an exception (60_exceptions.md R450), the return from one (R463) and the reset sequence (70_reset_and_hazards.md R501).
`wide` is the access width: true for a word, false for a byte. -/

namespace Sys2Proof.Machine

/-! ### Registers (00_scope.md R11) -/

/-- x[r] of a general register (10_state.md R21). -/
def State.getG (s : State) : GReg → Word
  | .ra => s.ra
  | .rb => s.rb
  | .rc => s.rc
  | .rd => s.rd
  | .re => s.re
  | .rf => s.rf

/-- x[r] <- v of a general register. -/
def State.setG (s : State) (r : GReg) (v : Word) : State :=
  match r with
  | .ra => { s with ra := v }
  | .rb => { s with rb := v }
  | .rc => { s with rc := v }
  | .rd => { s with rd := v }
  | .re => { s with re := v }
  | .rf => { s with rf := v }

/-- x[SP] <- v; bit 0 is stuck at 0 (10_state.md R26). -/
def State.setSp (s : State) (v : Word) : State := { s with sp := v &&& 0xFFFE }

/-- x[SPS] <- v; bit 0 is stuck at 0 (10_state.md R27). -/
def State.setSps (s : State) (v : Word) : State := { s with sps := v &&& 0xFFFE }

/-- x[PC] <- v; bit 0 is stuck at 0 (10_state.md R28). -/
def State.setPc (s : State) (v : Word) : State := { s with pc := v &&& 0xFFFE }

/-- x[LP] <- v (10_state.md R29). -/
def State.setLp (s : State) (v : Word) : State := { s with lp := v }

/-- x[MK] <- v; bit 15 is stuck at 0 (10_state.md R32). -/
def State.setMk (s : State) (v : Word) : State := { s with imk := v &&& 0x7FFF }

/-- x[PSW] <- v, all sixteen bits (10_state.md R30). -/
def State.setPsw (s : State) (v : Word) : State := { s with psw := v }

/-- m[k] of an ASTROM register (10_state.md R36). -/
def State.getM (s : State) : AcReg → Long
  | .r0 => s.m.r0
  | .r1 => s.m.r1
  | .r2 => s.m.r2
  | .r3 => s.m.r3

/-- m[k] <- v. -/
def State.setM (s : State) (k : AcReg) (v : Long) : State :=
  match k with
  | .r0 => { s with m := { s.m with r0 := v } }
  | .r1 => { s with m := { s.m with r1 := v } }
  | .r2 => { s with m := { s.m with r2 := v } }
  | .r3 => { s with m := { s.m with r3 := v } }

/-- MF.UPFOK: the host input, 0 where no ASTROM is fitted (10_state.md R37; 47_astrom.md R380). -/
def State.upfok (s : State) : Bool := s.inp.upfok && s.cfg.astromPresent

/-- The old register with a byte in its low half, or a word (10_state.md R22, R23). -/
def mergeLow {n : Nat} (old : Word) (v : BitVec n) : Word :=
  if n ≤ 8 then old.extractLsb' 8 8 ++ v.setWidth 8 else v.setWidth 16

/-- Raise a trap where a condition holds (00_scope.md R14). -/
def raiseIf (b : Bool) (t : Trap) : M Unit := if b then throw (.trap t) else pure ()

/-- Stop the CPU where a condition holds (20_memory.md R81). -/
def haltIf (b : Bool) : M Unit := if b then throw .halt else pure ()

/-- Do something only where a condition holds. -/
def doIf (b : Bool) (x : M Unit) : M Unit := if b then x else pure ()

/-! ### The bus (20_memory.md R82 to R88) -/

/-- What answers at a physical address (R85); no region, no slave. -/
def Config.slaveAt (c : Config) (a : Nat) : Option SlaveKind :=
  (c.memMap.find? (fun r => decide (r.base ≤ a) && decide (a < r.base + r.size))).map (·.kind)

/-- Plain memory that a master may edit. -/
def Config.isRam (c : Config) (a : Nat) : Bool := Config.slaveAt c a == some .ram

/-- What answers an access: the slave of `MEM_MAP` where `BusResponds(pa, n, rw)`, else nothing (R82, R85; log 28). -/
def Config.answers (c : Config) (write wide : Bool) (pa : Word) : Option SlaveKind :=
  if ⟨pa, wide⟩ ∈ (if write then c.silentWrites else c.silentReads) then none else Config.slaveAt c pa.toNat

/-- `BusParityError(pa, n)` (R83; log 28). -/
def Config.parityError (c : Config) (wide : Bool) (pa : Word) : Bool := decide (⟨pa, wide⟩ ∈ c.badParity)

/-- The ADMP edits that fall before this bus cycle (R87; log 13). -/
def admpTick : M Unit := modify fun s =>
  match s.admp with
  | [] => s
  | edits :: rest => { s with mem := s.mem.writeCells (Config.isRam s.cfg) edits, admp := rest }

/-- One read cycle at a physical address: timeout, then parity (R82 to R85). A byte is delivered zero-extended. -/
def busRead (wide : Bool) (pa : Word) : M Word := do
  admpTick
  let s ← get
  match Config.answers s.cfg false wide pa with
  | none => throw (.trap .busTimeout)
  | some .device =>
    set { s with events := .devRead pa wide :: s.events, freeCount := s.freeCount + 1 }
    raiseIf (Config.parityError s.cfg wide pa) .parity
    return if wide then Config.devRead s.freeCount pa 16 else Config.devRead s.freeCount pa 8 &&& 0x00FF
  | some .ram | some .rom =>
    raiseIf (Config.parityError s.cfg wide pa) .parity
    return s.mem.read wide pa

/-- The bytes of an access, with their contents. -/
def State.cellsAt (s : State) (wide : Bool) (pa : Word) : List Host.Cell :=
  (if wide then [pa.toNat, (pa + 1).toNat] else [pa.toNat]).map fun a => (a, s.mem.readByte a)

/-- A store to RAM; a store of the program's own, `own`, is noted for the prefetch (R85, R91; log 7). -/
def State.store (s : State) (own wide : Bool) (pa v : Word) : State :=
  { s with
    mem := s.mem.write wide pa v
    stored := if own then s.stored ++ s.cellsAt wide pa else s.stored }

/-- One write cycle at a physical address (R82, R85). A byte cycle stores the low byte of `v`. `own` is false for the
pushes of an entry, which are no store of the program (log 7). -/
def busWrite (own wide : Bool) (pa : Word) (v : Word) : M Unit := do
  admpTick
  let s ← get
  match Config.answers s.cfg true wide pa with
  | none => throw (.trap .busTimeout)
  | some .device => set { s with events := .devWrite pa wide (if wide then v else v &&& 0x00FF) :: s.events }
  | some .rom => throw (.refuse .readOnlyWrite)
  | some .ram => set (s.store own wide pa v)

/-! ### Program-space accesses (20_memory.md R74, R78, R95) -/

/-- `Reloc(a)` for a program base (R78; log 5). -/
def relocate (base : BitVec 4) (a : Word) : Word :=
  if 0xF800 ≤ a.toNat then a else (a.extractLsb' 12 4 + base) ++ a.extractLsb' 0 12

/-- `Reloc(a)` of the instruction stream: the base applies whatever the instruction (R78; log 6). -/
def State.relocStream (s : State) (a : Word) : Word := relocate (pswBase s.cfg.pswLayout s.psw) a

/-- `Reloc(a)` of a data access: an instruction of `BASE_EXEMPT_INSTR` has no base (R78 c); log 6). -/
def State.reloc (s : State) (a : Word) : Word := if s.noBase then a else relocate (pswBase s.cfg.pswLayout s.psw) a

/-- `MemRead(a, n)` (R95). -/
def memRead (wide : Bool) (a : Word) : M Word := do
  raiseIf (wide && a.getLsbD 0) .oddAddress
  let s ← get
  busRead wide (s.reloc a)

/-- `MemWrite(a, n, v)` (R95). -/
def memWrite (wide : Bool) (a : Word) (v : Word) : M Unit := do
  raiseIf (wide && a.getLsbD 0) .oddAddress
  let s ← get
  busWrite true wide (s.reloc a) v

/-- The instruction just before stored to a byte of this access (R91). -/
def State.staleAt (s : State) (wide : Bool) (pa : Word) : Bool :=
  s.stale.any (fun c => decide (c.1 = pa.toNat) || (wide && decide (c.1 = (pa + 1).toNat)))

/-- What the instruction stream delivers at a physical address where memory holds `v`: where the instruction just
before stored to a byte of it, the new or the old contents, a free choice (R91; 70_reset_and_hazards.md R511; log 7). -/
def prefetched (wide : Bool) (pa : Word) (v : Word) : M Word := do
  let s ← get
  if s.staleAt wide pa then
    set { s with freeCount := s.freeCount + 1 }
    return if Config.prefetchSees s.freeCount pa then v
      else (s.mem.writeCells (fun _ => true) s.stale).read wide pa
  else return v

/-- `MemRead(a, n)` of the instruction stream (R95, R91). -/
def streamRead (wide : Bool) (a : Word) : M Word := do
  raiseIf (wide && a.getLsbD 0) .oddAddress
  let s ← get
  let v ← busRead wide (s.relocStream a)
  prefetched wide (s.relocStream a) v

/-- `MemWrite(a, n, v)` to an extension word (R95; 40_addressing_modes.md R168). -/
def streamWrite (wide : Bool) (a : Word) (v : Word) : M Unit := do
  raiseIf (wide && a.getLsbD 0) .oddAddress
  let s ← get
  busWrite true wide (s.relocStream a) v

/-- `Fetch16()` (30_encoding.md R112). -/
def fetch16 : M Word := do
  let s ← get
  let w ← streamRead true s.pc
  modify fun s => s.setPc (s.pc + 2)
  return w

/-! ### The two stacks (20_memory.md R80, R81) -/

/-- The address is outside [LP, 0xF7FF] (R80, R81). -/
def State.outsideStack (s : State) (a : Word) : Bool := decide (0xF7FF < a.toNat) || decide (a.toNat < s.lp.toNat)

/-- `PStackRead(a, n)` (R80). -/
def pstackRead (wide : Bool) (a : Word) : M Word := do
  let s ← get
  raiseIf (s.outsideStack a) .stackLimit
  busRead wide a

/-- `PStackWrite(a, n, v)` (R80). -/
def pstackWrite (wide : Bool) (a : Word) (v : Word) : M Unit := do
  let s ← get
  raiseIf (s.outsideStack a) .stackLimit
  busWrite true wide a v

/-- A trap inside a system-stack access stops the CPU instead (R81; log 12). -/
def haltOnTrap {α : Type} (x : M α) : M α := fun s =>
  match x s with
  | .ok v s' => .ok v s'
  | .error (.trap _) s' => .error .halt s'
  | .error .halt s' => .error .halt s'
  | .error (.refuse r) s' => .error (.refuse r) s'

/-- `SStackRead(a)` (R81). -/
def sstackRead (a : Word) : M Word := do
  let s ← get
  haltIf (s.outsideStack a || a.getLsbD 0)
  haltOnTrap (busRead true a)

/-- `SStackWrite(a, v)` (R81); `own` as in `busWrite`. -/
def sstackWrite (own : Bool) (a : Word) (v : Word) : M Unit := do
  let s ← get
  haltIf (s.outsideStack a || a.getLsbD 0)
  haltOnTrap (busWrite own true a v)

/-- Push a word on the program stack (10_state.md R26). -/
def pushProgram (v : Word) : M Unit := do
  modify fun s => s.setSp (s.sp - 2)
  let s ← get
  pstackWrite true s.sp v

/-- Push a word on the system stack (10_state.md R27); `own` as in `busWrite`. -/
def pushSystem (own : Bool) (v : Word) : M Unit := do
  modify fun s => s.setSps (s.sps - 2)
  let s ← get
  sstackWrite own s.sps v

/-- Pop a word from the system stack. -/
def popSystem : M Word := do
  let s ← get
  let v ← sstackRead s.sps
  modify fun s => s.setSps (s.sps + 2)
  return v

/-! ### Taking an exception (60_exceptions.md R440 to R453) -/

/-- The vector of each trap (R441; 20_memory.md R77). -/
def trapVector : Trap → Word
  | .stackLimit => 0xFF84
  | .oddAddress => 0xFF88
  | .busTimeout => 0xFF8C
  | .parity => 0xFF90
  | .astrom => 0xFF94
  | .invalidOpcode => 0xFF9C

/-- The vector of the breakpoint trap and of BTP (R441). -/
def breakpointVector : Word := 0xFF98

/-- The vector of TRAPn (20_memory.md R77). -/
def softVector (n : BitVec 3) : Word := 0xFFA0 + 4 * n.setWidth 16

/-- The vector of interrupt level n (20_memory.md R77). -/
def interruptVector (n : Nat) : Word := 0xFFC0 + 4 * BitVec.ofNat 16 n

/-- `VecRead(a)` (R453; 20_memory.md R95). -/
def vecRead (a : Word) : M Word := memRead true a

/-- `TrapEntry(vec)` (R450) with the PC value to stack. -/
def trapEntry (savedPc vec : Word) : M Unit := do
  pushSystem false savedPc
  let s ← get
  pushSystem false s.psw
  let p ← vecRead vec
  let q ← vecRead (vec + 2)
  modify fun s => { (s.setPsw p).setPc q with run := .run }

/-- The longest chain of entries: more than the system stack has room for (log 14). -/
def entryFuel : Nat := 16384

/-- `on raise T: bp_armed <- 0; TrapEntry(vector of T)` (R469); a fault of the vector read raises its own trap, which
pushes the same PC and PSW again (R453); a fault of the system stack stops the CPU (R452). -/
def raiseTrap : Nat → Word → Trap → State → Result
  | 0, _, _, _ => .fault .entryChain
  | k + 1, savedPc, t, s =>
    match trapEntry savedPc (trapVector t) { s with bpArmed := false } with
    | .ok _ s' => .next s'
    | .error (.trap t') s' => raiseTrap k savedPc t' s'
    | .error .halt s' => .next { s' with run := .halt }
    | .error (.refuse r) _ => .refused r

/-- The four access faults (R451). -/
def isAccessFault : Trap → Bool
  | .stackLimit | .oddAddress | .busTimeout | .parity => true
  | .astrom | .invalidOpcode => false

/-- Raise a trap in an instruction: the stacked PC is the PC at that moment, or `TRAP_PC` where the configuration
leaves it open (R451; log 8). -/
def raiseInInstr (t : Trap) (s : State) : Result :=
  if isAccessFault t && decide (t ∈ s.cfg.trapPcOpen) then
    raiseTrap entryFuel (Config.trapPc s.freeCount t) t { s with freeCount := s.freeCount + 1 }
  else raiseTrap entryFuel s.pc t s

/-- Run the meaning of an instruction: its end, or the trap it raises, or HALT (R469). -/
def runM (x : M Unit) (s : State) : Result :=
  match x s with
  | .ok _ s' => .next s'
  | .error (.trap t) s' => raiseInInstr t s'
  | .error .halt s' => .next { s' with run := .halt }
  | .error (.refuse r) _ => .refused r

/-- Run an entry or a reset: a fault of its vector read raises a trap with the PC that is still in place (R453). -/
def runEvent (x : M Unit) (s : State) : Result :=
  match x s with
  | .ok _ s' => .next s'
  | .error (.trap t) s' => raiseTrap entryFuel s'.pc t s'
  | .error .halt s' => .next { s' with run := .halt }
  | .error (.refuse r) _ => .refused r

/-- `TrapEntry(vec)` of an event that is no raised trap: BTP, TRAPn, breakpoint, interrupt (R449, R455, R460). -/
def enterEvent (vec : Word) (s : State) : Result := runEvent (trapEntry s.pc vec) s

/-- Continue with the next state, if there is one. -/
def andThen (r : Result) (f : State → Result) : Result :=
  match r with
  | .next s => f s
  | .fault e => .fault e
  | .refused e => .refused e

/-! ### Return from an exception (60_exceptions.md R463; 45_zero_operand.md R325 to R327) -/

/-- Pop PSW, then PC (R326). -/
def returnEntry : M Unit := do
  let p ← popSystem
  modify fun s => s.setPsw p
  let q ← popSystem
  modify fun s => s.setPc q

/-- Exchange PC and PSW with the two words on top of the system stack (R325). -/
def exchangeEntry : M Unit := do
  let p ← popSystem
  let q ← popSystem
  let s ← get
  pushSystem true s.pc
  pushSystem true s.psw
  modify fun s => (s.setPsw p).setPc q

/-! ### Reset (70_reset_and_hazards.md R501) -/

/-- What a reset does before its vector reads: INI to every device, the registers of Tabela 2.2, and an ASTROM whose
contents no rule states (10_state.md R43; log 25); nothing that was prefetched is left. -/
def State.resetRegs (s : State) : State :=
  let u := Config.astromUnset s.freeCount
  { s with
    events := .devReset :: s.events
    sps := 0xF800
    sp := 0xF700
    lp := 0xF600
    imk := 0x0000
    m := u.1
    mf := u.2
    stale := []
    freeCount := s.freeCount + 1 }

/-- The reset sequence (R501). -/
def resetSequence : M Unit := do
  modify fun s => s.resetRegs
  let p ← vecRead 0xFF80
  let q ← vecRead 0xFF82
  modify fun s => { (s.setPsw p).setPc q with bpArmed := false, run := .halt }

end Sys2Proof.Machine
end

