-- ==== Sys2Proof/Machine/Operands.lean ====
section
/-! DEFINITION. The twelve addressing modes (40_addressing_modes.md), reading and writing a location, and the shapes of
instructions: each meaning of a family is one of these templates with its own computation. `n` is the operand size in
bits, 8 or 16. -/

namespace Sys2Proof.Machine

/-! ### Locations (R151, R164, R165) -/

/-- Where an operand is (R151). -/
inductive Loc where
  | reg (r : GReg)
  | spReg
  | mem (a : Word)
  /-- A `Mem(a)` that is the extension word itself, in immediate mode (R160). -/
  | imm (a : Word)
  | pstk (a : Word)
  deriving DecidableEq, Repr

/-- A byte or word access of n bits. -/
def isWide (n : Nat) : Bool := decide (8 < n)

/-- `REL_PC_BIAS` (R162; log 4). -/
def relBias (c : Config) : Word := if c.relPcBiasTwo then 2 else 0

/-- `Locate(spec, size)` for a byte or word operand (R151). -/
def locate : Operand → M Loc
  | .direct r => return .reg r
  | .indirect r => do
    let s ← get
    return .mem (s.getG r)
  | .indexed r => do
    let d ← fetch16
    let s ← get
    return .mem (s.getG r + d)
  | .indexedIndirect r => do
    let d ← fetch16
    let s ← get
    let p ← memRead true (s.getG r + d)
    return .mem p
  | .spDirect => return .spReg
  | .autodec => do
    modify fun s => s.setSp (s.sp - 2)
    let s ← get
    return .pstk s.sp
  | .autoinc => do
    let s ← get
    set (s.setSp (s.sp + 2))
    return .pstk s.sp
  | .stackTop => do
    let s ← get
    return .pstk s.sp
  | .immediate => do
    let s ← get
    set (s.setPc (s.pc + 2))
    return .imm s.pc
  | .absolute => do
    let a ← fetch16
    return .mem a
  | .relative => do
    let s ← get
    let d ← fetch16
    return .mem (s.pc + relBias s.cfg + d)
  | .relativeIndirect => do
    let s ← get
    let d ← fetch16
    let p ← memRead true (s.pc + relBias s.cfg + d)
    return .mem p

/-- `ReadLoc(loc, size)` (R164). -/
def readLoc (n : Nat) : Loc → M (BitVec n)
  | .reg r => do
    let s ← get
    return (s.getG r).setWidth n
  | .spReg => do
    let s ← get
    return s.sp.setWidth n
  | .mem a => do
    let v ← memRead (isWide n) a
    return v.setWidth n
  | .imm a => do
    let v ← streamRead (isWide n) a
    return v.setWidth n
  | .pstk a => do
    let v ← pstackRead (isWide n) a
    return v.setWidth n

/-- `WriteLoc(loc, size, v)` (R165). -/
def writeLoc (n : Nat) (l : Loc) (v : BitVec n) : M Unit :=
  match l with
  | .reg r => modify fun s => s.setG r (mergeLow (s.getG r) v)
  | .spReg => modify fun s => s.setSp (mergeLow s.sp v)
  | .mem a => memWrite (isWide n) a (v.setWidth 16)
  | .imm a => streamWrite (isWide n) a (v.setWidth 16)
  | .pstk a => pstackWrite (isWide n) a (v.setWidth 16)

/-- Set the PSW after the last operand access (41_two_operand.md R200). -/
def setFlags (p : Word) : M Unit := modify fun s => s.setPsw p

/-! ### Register pairs (R166; 10_state.md R24) -/

/-- The three register pairs. -/
inductive Pair where
  | ab | cd | ef
  deriving DecidableEq, Repr

/-- The declared register of a pair. -/
def pairDeclared : Pair → GReg
  | .ab => .ra
  | .cd => .rc
  | .ef => .re

/-- The other register of a pair. -/
def pairPartner : Pair → GReg
  | .ab => .rb
  | .cd => .rd
  | .ef => .rf

/-- The pair a long-word operand names, if it may (R166). -/
def pairOf : Operand → Option Pair
  | .direct .ra => some .ab
  | .direct .rc => some .cd
  | .direct .re => some .ef
  | .direct .rb | .direct .rd | .direct .rf => none
  | .indirect _ | .indexed _ | .indexedIndirect _ => none
  | .spDirect | .autodec | .autoinc | .stackTop => none
  | .immediate | .absolute | .relative | .relativeIndirect => none

/-- `Locate(spec, L)` (R151, R166). -/
def locateLong (o : Operand) : M Pair :=
  match pairOf o with
  | some p => return p
  | none => throw (.trap .invalidOpcode)

/-- pair(r) (10_state.md R24; log 3). -/
def State.getPair (s : State) (p : Pair) : Long :=
  if s.cfg.longHighIsDeclared then s.getG (pairDeclared p) ++ s.getG (pairPartner p)
  else s.getG (pairPartner p) ++ s.getG (pairDeclared p)

/-- pair(r) <- v; both registers are written (R165). -/
def State.setPair (s : State) (p : Pair) (v : Long) : State :=
  if s.cfg.longHighIsDeclared then
    (s.setG (pairDeclared p) (v.extractLsb' 16 16)).setG (pairPartner p) (v.extractLsb' 0 16)
  else
    (s.setG (pairPartner p) (v.extractLsb' 16 16)).setG (pairDeclared p) (v.extractLsb' 0 16)

/-- `ReadLoc(RegPair, L)` (R164). -/
def readPair (p : Pair) : M Long := do
  let s ← get
  return s.getPair p

/-- `WriteLoc(RegPair, L, v)` (R165). -/
def writePair (p : Pair) (v : Long) : M Unit := modify fun s => s.setPair p v

/-! ### Shapes of instructions -/

/-- Locate and read one operand. -/
def readOperand (n : Nat) (o : Operand) : M (BitVec n) := do
  let l ← locate o
  readLoc n l

/-- Two operands read, the destination written (41_two_operand.md R200). -/
def twoReadWrite (n : Nat) (op : BitVec n → BitVec n → Word → BitVec n × Word) (f d : Operand) : M Unit := do
  let sv ← readOperand n f
  let ld ← locate d
  let dv ← readLoc n ld
  let s ← get
  writeLoc n ld (op sv dv s.psw).1
  setFlags (op sv dv s.psw).2

/-- Two operands read, none written (41_two_operand.md R205, R211, R212). -/
def twoReadOnly (n : Nat) (op : BitVec n → BitVec n → Word → BitVec n × Word) (f d : Operand) : M Unit := do
  let sv ← readOperand n f
  let dv ← readOperand n d
  let s ← get
  setFlags (op sv dv s.psw).2

/-- The source moved to a destination that is not read (41_two_operand.md R213). -/
def moveOp (n : Nat) (f d : Operand) : M Unit := do
  let sv ← readOperand n f
  let ld ← locate d
  writeLoc n ld sv
  let s ← get
  setFlags (logicResult sv s.psw).2

/-- Source and destination exchanged: both read, then the source location written, then the destination
(41_two_operand.md R214; log 17). -/
def exchangeOp (n : Nat) (f d : Operand) : M Unit := do
  let ls ← locate f
  let sv ← readLoc n ls
  let ld ← locate d
  let dv ← readLoc n ld
  writeLoc n ls dv
  writeLoc n ld sv
  let s ← get
  setFlags (logicResult sv s.psw).2

/-- One operand read and written (42_one_operand_arith.md R230; 43_shift_rotate.md R260). -/
def oneReadWrite (n : Nat) (op : BitVec n → Word → BitVec n × Word) (d : Operand) : M Unit := do
  let ld ← locate d
  let dv ← readLoc n ld
  let s ← get
  writeLoc n ld (op dv s.psw).1
  setFlags (op dv s.psw).2

/-- One operand read only (42_one_operand_arith.md R242). -/
def oneReadOnly (n : Nat) (op : BitVec n → Word → BitVec n × Word) (d : Operand) : M Unit := do
  let dv ← readOperand n d
  let s ← get
  setFlags (op dv s.psw).2

/-- One operand written only (42_one_operand_arith.md R230). -/
def oneWriteOnly (n : Nat) (op : Word → BitVec n × Word) (d : Operand) : M Unit := do
  let ld ← locate d
  let s ← get
  writeLoc n ld (op s.psw).1
  setFlags (op s.psw).2

/-- One operand read, and written only where it is negative (42_one_operand_arith.md R239). -/
def oneWriteNegative (n : Nat) (op : BitVec n → Word → BitVec n × Word) (d : Operand) : M Unit := do
  let ld ← locate d
  let dv ← readLoc n ld
  let s ← get
  doIf dv.msb (writeLoc n ld (op dv s.psw).1)
  setFlags (op dv s.psw).2

/-- A long shift on a register pair (43_shift_rotate.md R261). -/
def longShift (f : ShiftRule 32) (d : Operand) : M Unit := do
  let p ← locateLong d
  let v ← readPair p
  let s ← get
  writePair p (aluLongShift f v s.psw).1
  setFlags (aluLongShift f v s.psw).2

/-- A special register stored in a word operand (44_one_operand_control.md R303, R305, R310). -/
def storeSpecial (reg : State → Word) (d : Operand) : M Unit := do
  let ld ← locate d
  let s ← get
  writeLoc 16 ld (reg s)

/-- A special register loaded from a word operand (44_one_operand_control.md R304, R306 to R309). -/
def loadSpecial (upd : Word → State → State) (d : Operand) : M Unit := do
  let v ← readOperand 16 d
  modify fun s => upd v s

/-- A relative branch (46_parameter.md R340). -/
def branchIf (cond : Word → Bool) (off : BitVec 8) : M Unit := modify fun s =>
  if cond s.psw then s.setPc (branchTarget s.pc off) else s

end Sys2Proof.Machine
end

