-- ==== Sys2Proof/Machine/Astrom.lean ====
section
/-! DEFINITION. The instructions of the ASTROM arithmetic unit (47_astrom.md). -/

namespace Sys2Proof.Machine

/-! ### Results and result codes -/

/-- All six result codes 0 (R385 b)). -/
def clearCodes : AstromCodes := ⟨false, false, false, false, false, false⟩

/-- ZUPF and SUPF of a result; no other code set. -/
def plainCodes (z n : Bool) : AstromCodes := ⟨z, n, false, false, false, false⟩

/-- IntVal of a register or of a word: the 16-bit two's-complement integer (R382). -/
def intVal (w : Word) : Int := w.toInt

/-- An integer that 16 bits hold (R382). -/
def intFits (e : Int) : Bool := decide (-32768 ≤ e) && decide (e ≤ 32767)

/-- `AstromFn.idiv_round`: a / b for b not 0 (R389; log 20). -/
def intQuotient (r : DivRounding) (a b : Word) : Int :=
  match r with
  | .towardZero => Int.tdiv (intVal a) (intVal b)
  | .unstated =>
    if Int.tmod (intVal a) (intVal b) = 0 then Int.tdiv (intVal a) (intVal b)
    else Int.fdiv (intVal a) (intVal b) + (if Config.divRoundsUp a b then 1 else 0)

/-- The exact result of an integer operation (R389). -/
def intExact (r : DivRounding) (op : AstromOp) (a b : Word) : Int :=
  match op with
  | .add => intVal a + intVal b
  | .sub => intVal a - intVal b
  | .mul => intVal a * intVal b
  | .div => intQuotient r a b
  | .neg => -intVal b
  | .abs => |intVal b|

/-- The division by zero of R389. -/
def isDivByZero (op : AstromOp) (b : Word) : Bool := op == .div && b == 0

/-- The codes of a result that is read as an integer: ZUPF and SUPF by its bits 15-0 (R382, R384; log 20). -/
def integerCodes (r : Long) (k : AstromCodes) : AstromCodes :=
  { k with zupf := r.extractLsb' 0 16 == 0, supf := (r.extractLsb' 0 16).msb }

/-- `IntOp` (R389): exact and zero-extended in range; else what `int_exc` leaves, with OVFL = 1, or DIVZ = 1 for a
zero divisor, and ZUPF and SUPF by that result (logs 11 and 20). -/
def intOp (op : AstromOp) (c : Config) (acc : Long) (b : Word) : Long × AstromCodes :=
  let a := acc.extractLsb' 0 16
  let x := Config.intExc op a b
  if isDivByZero op b then (x.1, { integerCodes x.1 x.2 with divz := true, cver := false })
  else
    let e := intExact c.divRounding op a b
    if intFits e then ((BitVec.ofInt 16 e).setWidth 32, plainCodes (decide (e = 0)) (decide (e < 0)))
    else (x.1, { integerCodes x.1 x.2 with ovfl := true, divz := false, cver := false })

/-- The codes of a floating-point result: ZUPF and SUPF by the result, DIVZ by the divisor, CVER = 0, the others as the
opaque function gives them (R384; log 11). -/
def floatCodes (r : Long × AstromCodes) (divz : Bool) : Long × AstromCodes :=
  (r.1, { r.2 with zupf := Config.fpIsZero r.1, supf := Config.fpIsNeg r.1, divz := divz, cver := false })

/-- SMPF (R398, R399). -/
def faddOp (_ : Config) (acc v : Long) : Long × AstromCodes := floatCodes (Config.fadd acc v) false
/-- SUPF and CMPF (R400, R401, R411, R412). -/
def fsubOp (_ : Config) (acc v : Long) : Long × AstromCodes := floatCodes (Config.fsub acc v) false
/-- MLPF (R402, R403). -/
def fmulOp (_ : Config) (acc v : Long) : Long × AstromCodes := floatCodes (Config.fmul acc v) false
/-- DVPF (R404, R405). -/
def fdivOp (_ : Config) (acc v : Long) : Long × AstromCodes := floatCodes (Config.fdiv acc v) (Config.fpIsZero v)
/-- NGPF (R407, R408). -/
def fnegOp (_ : Config) (_ v : Long) : Long × AstromCodes := floatCodes (Config.fneg v) false
/-- ABPF (R409). -/
def fabsOp (_ : Config) (_ v : Long) : Long × AstromCodes := floatCodes (Config.fabs v) false
/-- IPF (R413, R414). -/
def itofOp (_ : Config) (_ : Long) (v : Word) : Long × AstromCodes := floatCodes (Config.itof v) false

/-- PFI (R415, R416): ZUPF and SUPF by the integer the result is, which with CVER = 0 is zero-extended (R384;
log 11). -/
def ftoiOp (_ : Config) (_ v : Long) : Long × AstromCodes :=
  let x := Config.ftoi v
  (if x.2.cver then x.1 else (x.1.extractLsb' 0 16).setWidth 32, { integerCodes x.1 x.2 with divz := false })

/-- CPRGI and CRPF: all 32 bits (R417, R419). -/
def copyOp (_ : Config) (_ v : Long) : Long × AstromCodes := (v, clearCodes)
/-- CRI (R418). -/
def loadIntOp (_ : Config) (_ : Long) (v : Word) : Long × AstromCodes := (v.setWidth 32, clearCodes)

/-! ### Sources (R387) -/

/-- A long word in a register pair. -/
def longSource (p : Operand) : M Long := do
  let q ← locateLong p
  readPair q

/-- A word operand in any of the twelve modes. -/
def wordSource (p : Operand) : M Word := readOperand 16 p

/-- AC2, all 32 bits. -/
def acSource (b : AcReg) : M Long := do
  let s ← get
  return s.getM b

/-- AC2, the integer in bits 15-0 (R382). -/
def acIntSource (b : AcReg) : M Word := do
  let s ← get
  return (s.getM b).extractLsb' 0 16

/-! ### The execution template (R388) -/

/-- The causes of the ASTROM trap among the result codes (R386). -/
def raisesTrap (k : AstromCodes) : Bool := k.divz || k.ovfl || k.undf || k.cver

/-- With UPFOK = 0 the ASTROM trap, before anything of the unit or the destination changes (R386, R388). -/
def requireUp : M Unit := do
  let s ← get
  raiseIf (!s.upfok) .astrom

/-- AC1, where it is written, and the six result codes (R388). -/
def State.putResult (s : State) (writesAcc : Bool) (a : AcReg) (x : Long × AstromCodes) : State :=
  if writesAcc then { s.setM a x.1 with mf := x.2 } else { s with mf := x.2 }

/-- Source, UPFOK, operation, AC1 where it is written, codes, trap (R388). -/
def astromOp {α : Type} (src : M α) (op : Config → Long → α → Long × AstromCodes) (writesAcc : Bool) (a : AcReg) :
    M Unit := do
  let v ← src
  requireUp
  let s ← get
  set (s.putResult writesAcc a (op s.cfg (s.getM a) v))
  raiseIf (raisesTrap (op s.cfg (s.getM a) v).2) .astrom

/-- AZPF: AC1 stored in a register pair (R420). -/
def storeFloat (a : AcReg) (p : Operand) : M Unit := do
  let q ← locateLong p
  requireUp
  let s ← get
  writePair q (s.getM a)
  modify fun s => { s with mf := clearCodes }

/-- AZI: bits 15-0 of AC1 stored in a word operand (R421). -/
def storeInt (a : AcReg) (p : Operand) : M Unit := do
  let l ← locate p
  requireUp
  let s ← get
  writeLoc 16 l ((s.getM a).extractLsb' 0 16)
  modify fun s => { s with mf := clearCodes }


/-- SMPFP (R398). -/
def execSmpfp (a : AcReg) (p : Operand) (s : State) : Result := runM (astromOp (longSource p) faddOp true a) s

/-- SMPFM (R399). -/
def execSmpfm (a b : AcReg) (s : State) : Result := runM (astromOp (acSource b) faddOp true a) s

/-- SUPFP (R400). -/
def execSupfp (a : AcReg) (p : Operand) (s : State) : Result := runM (astromOp (longSource p) fsubOp true a) s

/-- SUPFM (R401). -/
def execSupfm (a b : AcReg) (s : State) : Result := runM (astromOp (acSource b) fsubOp true a) s

/-- MLPFP (R402). -/
def execMlpfp (a : AcReg) (p : Operand) (s : State) : Result := runM (astromOp (longSource p) fmulOp true a) s

/-- MLPFM (R403). -/
def execMlpfm (a b : AcReg) (s : State) : Result := runM (astromOp (acSource b) fmulOp true a) s

/-- DVPFP (R404). -/
def execDvpfp (a : AcReg) (p : Operand) (s : State) : Result := runM (astromOp (longSource p) fdivOp true a) s

/-- DVPFM (R405). -/
def execDvpfm (a b : AcReg) (s : State) : Result := runM (astromOp (acSource b) fdivOp true a) s

/-- SMIP (R390). -/
def execSmip (a : AcReg) (p : Operand) (s : State) : Result := runM (astromOp (wordSource p) (intOp .add) true a) s

/-- SMIM (R391). -/
def execSmim (a b : AcReg) (s : State) : Result := runM (astromOp (acIntSource b) (intOp .add) true a) s

/-- SUIP (R392). -/
def execSuip (a : AcReg) (p : Operand) (s : State) : Result := runM (astromOp (wordSource p) (intOp .sub) true a) s

/-- SUIM (R393). -/
def execSuim (a b : AcReg) (s : State) : Result := runM (astromOp (acIntSource b) (intOp .sub) true a) s

/-- MLIP (R394). -/
def execMlip (a : AcReg) (p : Operand) (s : State) : Result := runM (astromOp (wordSource p) (intOp .mul) true a) s

/-- MLIM (R395). -/
def execMlim (a b : AcReg) (s : State) : Result := runM (astromOp (acIntSource b) (intOp .mul) true a) s

/-- DVIP (R396). -/
def execDvip (a : AcReg) (p : Operand) (s : State) : Result := runM (astromOp (wordSource p) (intOp .div) true a) s

/-- DVIM (R397). -/
def execDvim (a b : AcReg) (s : State) : Result := runM (astromOp (acIntSource b) (intOp .div) true a) s

/-- NGIN (R406). -/
def execNgin (a b : AcReg) (s : State) : Result := runM (astromOp (acIntSource b) (intOp .neg) true a) s

/-- ABSI (R410). -/
def execAbsi (a b : AcReg) (s : State) : Result := runM (astromOp (acIntSource b) (intOp .abs) true a) s

/-- NGPFP (R407). -/
def execNgpfp (a : AcReg) (p : Operand) (s : State) : Result := runM (astromOp (longSource p) fnegOp true a) s

/-- NGPFM (R408). -/
def execNgpfm (a b : AcReg) (s : State) : Result := runM (astromOp (acSource b) fnegOp true a) s

/-- ABPF (R409). -/
def execAbpf (a b : AcReg) (s : State) : Result := runM (astromOp (acSource b) fabsOp true a) s

/-- CMPFP (R411). -/
def execCmpfp (a : AcReg) (p : Operand) (s : State) : Result := runM (astromOp (longSource p) fsubOp false a) s

/-- CMPFM (R412). -/
def execCmpfm (a b : AcReg) (s : State) : Result := runM (astromOp (acSource b) fsubOp false a) s

/-- IPFP (R413). -/
def execIpfp (a : AcReg) (p : Operand) (s : State) : Result := runM (astromOp (wordSource p) itofOp true a) s

/-- IPFM (R414). -/
def execIpfm (a b : AcReg) (s : State) : Result := runM (astromOp (acIntSource b) itofOp true a) s

/-- PFIP (R415). -/
def execPfip (a : AcReg) (p : Operand) (s : State) : Result := runM (astromOp (longSource p) ftoiOp true a) s

/-- PFIM (R416). -/
def execPfim (a b : AcReg) (s : State) : Result := runM (astromOp (acSource b) ftoiOp true a) s

/-- CPRGI (R417). -/
def execCprgi (a b : AcReg) (s : State) : Result := runM (astromOp (acSource b) copyOp true a) s

/-- CRI (R418). -/
def execCri (a : AcReg) (p : Operand) (s : State) : Result := runM (astromOp (wordSource p) loadIntOp true a) s

/-- CRPF (R419). -/
def execCrpf (a : AcReg) (p : Operand) (s : State) : Result := runM (astromOp (longSource p) copyOp true a) s

/-- AZPF (R420). -/
def execAzpf (a : AcReg) (p : Operand) (s : State) : Result := runM (storeFloat a p) s

/-- AZI (R421). -/
def execAzi (a : AcReg) (p : Operand) (s : State) : Result := runM (storeInt a p) s

end Sys2Proof.Machine
end

