-- ==== Sys2Proof/Machine/Control.lean ====
section
/-! DEFINITION. The one-operand control instructions (44_one_operand_control.md). -/

namespace Sys2Proof.Machine

/-- RET: PC gets the operand, the operand gets the word popped from the program stack (R301). -/
def retOp (d : Operand) : M Unit := do
  let ld ← locate d
  let t ← readLoc 16 ld
  modify fun s => s.setPc t
  let s ← get
  let v ← pstackRead true s.sp
  writeLoc 16 ld v
  modify fun s => s.setSp (s.sp + 2)

/-- The byte of ASTROM condition codes: TRP* CVER UNDF OVFL DIVZ SUPF ZUPF UPFOK (R311). -/
def codesByte (k : AstromCodes) (up : Bool) : Byte :=
  BitVec.ofBool (!(k.cver || k.undf || k.ovfl || k.divz)) ++ BitVec.ofBool k.cver ++ BitVec.ofBool k.undf ++
    BitVec.ofBool k.ovfl ++ BitVec.ofBool k.divz ++ BitVec.ofBool k.supf ++ BitVec.ofBool k.zupf ++ BitVec.ofBool up

/-- SFGMB: with the ASTROM absent or off bit 0 is 0 and bits 7-1 are free (R311; 47_astrom.md R380;
93_implementation_defined.md U29; log 19). -/
def sfgmbOp (d : Operand) : M Unit := do
  let ld ← locate d
  let s ← get
  if s.upfok then writeLoc 8 ld (codesByte s.mf s.upfok)
  else do
    set { s with freeCount := s.freeCount + 1 }
    writeLoc 8 ld (Config.sfgmbAbsent s.freeCount ++ (0 : BitVec 1))

/-- RET (R301). -/
def execRet (d : Operand) (s : State) : Result := runM (retOp d) s

/-- JMP (R302). -/
def execJmp (d : Operand) (s : State) : Result := runM (loadSpecial (fun v t => t.setPc v) d) s

/-- SLP (R303). -/
def execSlp (d : Operand) (s : State) : Result := runM (storeSpecial (fun t => t.lp) d) s

/-- CLP (R304). -/
def execClp (d : Operand) (s : State) : Result := runM (loadSpecial (fun v t => t.setLp v) d) s

/-- SMK (R305). -/
def execSmk (d : Operand) (s : State) : Result := runM (storeSpecial (fun t => t.imk) d) s

/-- CMK (R306). -/
def execCmk (d : Operand) (s : State) : Result := runM (loadSpecial (fun v t => t.setMk v) d) s

/-- DMI (R307). -/
def execDmi (d : Operand) (s : State) : Result := runM (loadSpecial (fun v t => t.setMk (t.imk &&& ~~~v)) d) s

/-- MKI (R308). -/
def execMki (d : Operand) (s : State) : Result := runM (loadSpecial (fun v t => t.setMk (t.imk ||| v)) d) s

/-- CSPS (R309). -/
def execCsps (d : Operand) (s : State) : Result := runM (loadSpecial (fun v t => t.setSps v) d) s

/-- SSPS (R310). -/
def execSsps (d : Operand) (s : State) : Result := runM (storeSpecial (fun t => t.sps) d) s

/-- SFGMB (R311). -/
def execSfgmb (d : Operand) (s : State) : Result := runM (sfgmbOp d) s

end Sys2Proof.Machine
end

