-- ==== Sys2Proof/Machine/OneOperand.lean ====
section
/-! DEFINITION. The one-operand arithmetic, logic and data instructions (42_one_operand_arith.md). -/

namespace Sys2Proof.Machine

/-- NEG (R231). -/
def execNeg (d : Operand) (s : State) : Result := runM (oneReadWrite 16 aluNeg d) s

/-- NEGB (R231). -/
def execNegb (d : Operand) (s : State) : Result := runM (oneReadWrite 8 aluNeg d) s

/-- INC (R232). -/
def execInc (d : Operand) (s : State) : Result := runM (oneReadWrite 16 aluInc d) s

/-- INCB (R232). -/
def execIncb (d : Operand) (s : State) : Result := runM (oneReadWrite 8 aluInc d) s

/-- DCR (R233). -/
def execDcr (d : Operand) (s : State) : Result := runM (oneReadWrite 16 aluDcr d) s

/-- DCRB (R233). -/
def execDcrb (d : Operand) (s : State) : Result := runM (oneReadWrite 8 aluDcr d) s

/-- ICT (R234). -/
def execIct (d : Operand) (s : State) : Result := runM (oneReadWrite 16 aluIct d) s

/-- ICTB (R234). -/
def execIctb (d : Operand) (s : State) : Result := runM (oneReadWrite 8 aluIct d) s

/-- DCT (R235). -/
def execDct (d : Operand) (s : State) : Result := runM (oneReadWrite 16 aluDct d) s

/-- DCTB (R235). -/
def execDctb (d : Operand) (s : State) : Result := runM (oneReadWrite 8 aluDct d) s

/-- CMT (R236). -/
def execCmt (d : Operand) (s : State) : Result := runM (oneReadWrite 16 aluCmt d) s

/-- CMTB (R236). -/
def execCmtb (d : Operand) (s : State) : Result := runM (oneReadWrite 8 aluCmt d) s

/-- STZ (R237). -/
def execStz (d : Operand) (s : State) : Result := runM (oneWriteOnly 16 aluStz d) s

/-- STZB (R237). -/
def execStzb (d : Operand) (s : State) : Result := runM (oneWriteOnly 8 aluStz d) s

/-- STO (R238). -/
def execSto (d : Operand) (s : State) : Result := runM (oneWriteOnly 16 aluSto d) s

/-- STOB (R238). -/
def execStob (d : Operand) (s : State) : Result := runM (oneWriteOnly 8 aluSto d) s

/-- ABS (R239). -/
def execAbs (d : Operand) (s : State) : Result := runM (oneWriteNegative 16 aluAbs d) s

/-- ABSB (R239). -/
def execAbsb (d : Operand) (s : State) : Result := runM (oneWriteNegative 8 aluAbs d) s

/-- ADC (R240). -/
def execAdc (d : Operand) (s : State) : Result := runM (oneReadWrite 16 aluAdc d) s

/-- ADCB (R240). -/
def execAdcb (d : Operand) (s : State) : Result := runM (oneReadWrite 8 aluAdc d) s

/-- SB (R241). -/
def execSb (d : Operand) (s : State) : Result := runM (oneReadWrite 16 aluSb d) s

/-- SBB (R241). -/
def execSbb (d : Operand) (s : State) : Result := runM (oneReadWrite 8 aluSb d) s

/-- CPZ (R242). -/
def execCpz (d : Operand) (s : State) : Result := runM (oneReadOnly 16 aluCpz d) s

/-- CPZB (R242). -/
def execCpzb (d : Operand) (s : State) : Result := runM (oneReadOnly 8 aluCpz d) s

/-- SXT (R243). -/
def execSxt (d : Operand) (s : State) : Result := runM (oneWriteOnly 16 aluSxt d) s

/-- SXTB (R243). -/
def execSxtb (d : Operand) (s : State) : Result := runM (oneWriteOnly 8 aluSxt d) s

/-- SWB (R244). -/
def execSwb (d : Operand) (s : State) : Result := runM (oneReadWrite 16 aluSwb d) s

end Sys2Proof.Machine
end

