-- ==== Sys2Proof/Machine/Parameter.lean ====
section
/-! DEFINITION. The instructions with parameter (46_parameter.md). -/

namespace Sys2Proof.Machine

/-- Where every code the mask selects is 1, these codes are cleared and the next word is skipped (R365). -/
def ercOp (k : BitVec 7) : M Unit := modify fun s =>
  if s.psw.extractLsb' 0 7 &&& k = k then
    (s.setPsw (withCodes s.psw (s.psw.extractLsb' 0 7 &&& ~~~k))).setPc (s.pc + 2)
  else s

/-- The seven condition codes by a bitwise operation with the mask (R364). -/
def maskOp (f : BitVec 7 → BitVec 7) : M Unit := modify fun s =>
  s.setPsw (withCodes s.psw (f (s.psw.extractLsb' 0 7)))

/-- DR (R341). -/
def execDr (o : BitVec 8) (s : State) : Result := runM (branchIf (fun _ => true) o) s

/-- DCO (R342). -/
def execDco (o : BitVec 8) (s : State) : Result := runM (branchIf pswC o) s

/-- DCZ (R343). -/
def execDcz (o : BitVec 8) (s : State) : Result := runM (branchIf (fun p => !pswC p) o) s

/-- DVO (R344). -/
def execDvo (o : BitVec 8) (s : State) : Result := runM (branchIf pswV o) s

/-- DVZ (R345). -/
def execDvz (o : BitVec 8) (s : State) : Result := runM (branchIf (fun p => !pswV p) o) s

/-- DZO (R346). -/
def execDzo (o : BitVec 8) (s : State) : Result := runM (branchIf pswZ o) s

/-- DZZ (R347). -/
def execDzz (o : BitVec 8) (s : State) : Result := runM (branchIf (fun p => !pswZ p) o) s

/-- DSO (R348). -/
def execDso (o : BitVec 8) (s : State) : Result := runM (branchIf pswS o) s

/-- DSZ (R349). -/
def execDsz (o : BitVec 8) (s : State) : Result := runM (branchIf (fun p => !pswS p) o) s

/-- DTAO (R350). -/
def execDtao (o : BitVec 8) (s : State) : Result := runM (branchIf pswT1 o) s

/-- DTAZ (R351). -/
def execDtaz (o : BitVec 8) (s : State) : Result := runM (branchIf (fun p => !pswT1 p) o) s

/-- DTBO (R352). -/
def execDtbo (o : BitVec 8) (s : State) : Result := runM (branchIf pswT2 o) s

/-- DTBZ (R353). -/
def execDtbz (o : BitVec 8) (s : State) : Result := runM (branchIf (fun p => !pswT2 p) o) s

/-- DTCO (R354). -/
def execDtco (o : BitVec 8) (s : State) : Result := runM (branchIf pswT3 o) s

/-- DTCZ (R355). -/
def execDtcz (o : BitVec 8) (s : State) : Result := runM (branchIf (fun p => !pswT3 p) o) s

/-- DGE (R356). -/
def execDge (o : BitVec 8) (s : State) : Result := runM (branchIf condGe o) s

/-- DLT (R357). -/
def execDlt (o : BitVec 8) (s : State) : Result := runM (branchIf condLt o) s

/-- DGT (R358). -/
def execDgt (o : BitVec 8) (s : State) : Result := runM (branchIf condGt o) s

/-- DLE (R359). -/
def execDle (o : BitVec 8) (s : State) : Result := runM (branchIf condLe o) s

/-- DHI (R360). -/
def execDhi (o : BitVec 8) (s : State) : Result := runM (branchIf condHi o) s

/-- DLS (R361). -/
def execDls (o : BitVec 8) (s : State) : Result := runM (branchIf condLs o) s

/-- DHS (R362). -/
def execDhs (o : BitVec 8) (s : State) : Result := runM (branchIf (fun p => !pswC p) o) s

/-- DLO (R363). -/
def execDlo (o : BitVec 8) (s : State) : Result := runM (branchIf pswC o) s

/-- ERC (R365). -/
def execErc (k : BitVec 7) (s : State) : Result := runM (ercOp k) s

/-- CFO (R366). -/
def execCfo (k : BitVec 7) (s : State) : Result := runM (maskOp (fun c => c ||| k)) s

/-- CFZ (R367). -/
def execCfz (k : BitVec 7) (s : State) : Result := runM (maskOp (fun c => c &&& k)) s

/-- CCC (R368). -/
def execCcc (k : BitVec 7) (s : State) : Result := runM (maskOp (fun _ => k)) s

/-- CNM (R369). -/
def execCnm (l : BitVec 4) (s : State) : Result := runM (modify fun t => t.setPsw (withLevel t.psw l)) s

end Sys2Proof.Machine
end

