-- ==== Sys2Proof/Machine/Shift.lean ====
section
/-! DEFINITION. The shift and rotate instructions (43_shift_rotate.md). -/

namespace Sys2Proof.Machine

/-- SLDL (R262). -/
def execSldl (d : Operand) (s : State) : Result := runM (longShift shSld d) s

/-- SLD (R267). -/
def execSld (d : Operand) (s : State) : Result := runM (oneReadWrite 16 (aluShift shSld) d) s

/-- SLDB (R267). -/
def execSldb (d : Operand) (s : State) : Result := runM (oneReadWrite 8 (aluShift shSld) d) s

/-- SDCL (R263). -/
def execSdcl (d : Operand) (s : State) : Result := runM (longShift shSdc d) s

/-- SDC (R268). -/
def execSdc (d : Operand) (s : State) : Result := runM (oneReadWrite 16 (aluShift shSdc) d) s

/-- SDCB (R268). -/
def execSdcb (d : Operand) (s : State) : Result := runM (oneReadWrite 8 (aluShift shSdc) d) s

/-- RDCL (R264). -/
def execRdcl (d : Operand) (s : State) : Result := runM (longShift shRdc d) s

/-- RDC (R269). -/
def execRdc (d : Operand) (s : State) : Result := runM (oneReadWrite 16 (aluShift shRdc) d) s

/-- RDCB (R269). -/
def execRdcb (d : Operand) (s : State) : Result := runM (oneReadWrite 8 (aluShift shRdc) d) s

/-- SADL (R265). -/
def execSadl (d : Operand) (s : State) : Result := runM (longShift shSad d) s

/-- SAD (R270). -/
def execSad (d : Operand) (s : State) : Result := runM (oneReadWrite 16 (aluShift shSad) d) s

/-- SADB (R270). -/
def execSadb (d : Operand) (s : State) : Result := runM (oneReadWrite 8 (aluShift shSad) d) s

/-- RTDL (R266). -/
def execRtdl (d : Operand) (s : State) : Result := runM (longShift shRtd d) s

/-- RTD (R271). -/
def execRtd (d : Operand) (s : State) : Result := runM (oneReadWrite 16 (aluShift shRtd) d) s

/-- RTDB (R271). -/
def execRtdb (d : Operand) (s : State) : Result := runM (oneReadWrite 8 (aluShift shRtd) d) s

/-- SLEL (R272). -/
def execSlel (d : Operand) (s : State) : Result := runM (longShift shSle d) s

/-- SLE (R276). -/
def execSle (d : Operand) (s : State) : Result := runM (oneReadWrite 16 (aluShift shSle) d) s

/-- SLEB (R276). -/
def execSleb (d : Operand) (s : State) : Result := runM (oneReadWrite 8 (aluShift shSle) d) s

/-- SECL (R273). -/
def execSecl (d : Operand) (s : State) : Result := runM (longShift shSec d) s

/-- SEC (R277). -/
def execSec (d : Operand) (s : State) : Result := runM (oneReadWrite 16 (aluShift shSec) d) s

/-- SECB (R277). -/
def execSecb (d : Operand) (s : State) : Result := runM (oneReadWrite 8 (aluShift shSec) d) s

/-- RECL (R274). -/
def execRecl (d : Operand) (s : State) : Result := runM (longShift shRec d) s

/-- REC (R278). -/
def execRecw (d : Operand) (s : State) : Result := runM (oneReadWrite 16 (aluShift shRec) d) s

/-- RECB (R278). -/
def execRecb (d : Operand) (s : State) : Result := runM (oneReadWrite 8 (aluShift shRec) d) s

/-- RTEL (R275). -/
def execRtel (d : Operand) (s : State) : Result := runM (longShift shRte d) s

/-- RTE (R279). -/
def execRte (d : Operand) (s : State) : Result := runM (oneReadWrite 16 (aluShift shRte) d) s

/-- RTEB (R279). -/
def execRteb (d : Operand) (s : State) : Result := runM (oneReadWrite 8 (aluShift shRte) d) s

end Sys2Proof.Machine
end

