-- ==== Sys2Proof/Machine/TwoOperand.lean ====
section
/-! DEFINITION. The two-operand instructions (41_two_operand.md). -/

namespace Sys2Proof.Machine

/-- DJZ: decrement the source, branch to the value of the destination unless the result is zero; both operands are
always read (R215). -/
def djzOp (f d : Operand) : M Unit := do
  let ls ← locate f
  let sv ← readLoc 16 ls
  let t ← readOperand 16 d
  let s ← get
  writeLoc 16 ls (aluDjz sv s.psw).1
  setFlags (aluDjz sv s.psw).2
  doIf ((aluDjz sv s.psw).1 != 0) (modify fun s => s.setPc t)

/-- JSB: the link gets the return address, its old content is pushed on the program stack (R216). -/
def jsbOp (f d : Operand) : M Unit := do
  let ls ← locate f
  let tmp1 ← readLoc 16 ls
  let tmp2 ← readOperand 16 d
  let s ← get
  writeLoc 16 ls s.pc
  pushProgram tmp1
  modify fun s => s.setPc tmp2

/-- ADD (R201). -/
def execAdd (f d : Operand) (s : State) : Result := runM (twoReadWrite 16 aluAdd f d) s

/-- ADDB (R201). -/
def execAddb (f d : Operand) (s : State) : Result := runM (twoReadWrite 8 aluAdd f d) s

/-- DAC (R202). -/
def execDac (f d : Operand) (s : State) : Result := runM (twoReadWrite 16 aluDac f d) s

/-- DACB (R202). -/
def execDacb (f d : Operand) (s : State) : Result := runM (twoReadWrite 8 aluDac f d) s

/-- SUB (R203). -/
def execSub (f d : Operand) (s : State) : Result := runM (twoReadWrite 16 aluSub f d) s

/-- SUBB (R203). -/
def execSubb (f d : Operand) (s : State) : Result := runM (twoReadWrite 8 aluSub f d) s

/-- DSB (R204). -/
def execDsb (f d : Operand) (s : State) : Result := runM (twoReadWrite 16 aluDsb f d) s

/-- DSBB (R204). -/
def execDsbb (f d : Operand) (s : State) : Result := runM (twoReadWrite 8 aluDsb f d) s

/-- CMP (R205). -/
def execCmp (f d : Operand) (s : State) : Result := runM (twoReadOnly 16 aluCmp f d) s

/-- CMPB (R205). -/
def execCmpb (f d : Operand) (s : State) : Result := runM (twoReadOnly 8 aluCmp f d) s

/-- AND (R206). -/
def execAnd (f d : Operand) (s : State) : Result := runM (twoReadWrite 16 aluAnd f d) s

/-- ANDB (R206). -/
def execAndb (f d : Operand) (s : State) : Result := runM (twoReadWrite 8 aluAnd f d) s

/-- OR (R207). -/
def execOr (f d : Operand) (s : State) : Result := runM (twoReadWrite 16 aluOr f d) s

/-- ORB (R207). -/
def execOrb (f d : Operand) (s : State) : Result := runM (twoReadWrite 8 aluOr f d) s

/-- MSK (R208). -/
def execMsk (f d : Operand) (s : State) : Result := runM (twoReadWrite 16 aluMsk f d) s

/-- MSKB (R208). -/
def execMskb (f d : Operand) (s : State) : Result := runM (twoReadWrite 8 aluMsk f d) s

/-- XOR (R209). -/
def execXor (f d : Operand) (s : State) : Result := runM (twoReadWrite 16 aluXor f d) s

/-- XORB (R209). -/
def execXorb (f d : Operand) (s : State) : Result := runM (twoReadWrite 8 aluXor f d) s

/-- XNR (R210). -/
def execXnr (f d : Operand) (s : State) : Result := runM (twoReadWrite 16 aluXnr f d) s

/-- XNRB (R210). -/
def execXnrb (f d : Operand) (s : State) : Result := runM (twoReadWrite 8 aluXnr f d) s

/-- COC (R211). -/
def execCoc (f d : Operand) (s : State) : Result := runM (twoReadOnly 16 aluCoc f d) s

/-- COCB (R211). -/
def execCocb (f d : Operand) (s : State) : Result := runM (twoReadOnly 8 aluCoc f d) s

/-- CZC (R212). -/
def execCzc (f d : Operand) (s : State) : Result := runM (twoReadOnly 16 aluCzc f d) s

/-- CZCB (R212). -/
def execCzcb (f d : Operand) (s : State) : Result := runM (twoReadOnly 8 aluCzc f d) s

/-- MOV (R213). -/
def execMov (f d : Operand) (s : State) : Result := runM (moveOp 16 f d) s

/-- MOVB (R213). -/
def execMovb (f d : Operand) (s : State) : Result := runM (moveOp 8 f d) s

/-- EXC (R214). -/
def execExc (f d : Operand) (s : State) : Result := runM (exchangeOp 16 f d) s

/-- EXCB (R214). -/
def execExcb (f d : Operand) (s : State) : Result := runM (exchangeOp 8 f d) s

/-- DJZ (R215). -/
def execDjz (f d : Operand) (s : State) : Result := runM (djzOp f d) s

/-- JSB (R216). -/
def execJsb (f d : Operand) (s : State) : Result := runM (jsbOp f d) s

end Sys2Proof.Machine
end

