-- ==== Sys2Proof/Machine/ZeroOperand.lean ====
section
/-! DEFINITION. The zero-operand instructions (45_zero_operand.md). -/

namespace Sys2Proof.Machine

/-- The pushes of SRG, RF first (R329). -/
def saveRegisters : M Unit := do
  let s ← get
  pushProgram s.rf
  pushProgram s.re
  pushProgram s.rd
  pushProgram s.rc
  pushProgram s.rb
  pushProgram s.ra

/-- One pop of CRG (R330). -/
def popToReg (r : GReg) : M Unit := do
  let s ← get
  let v ← pstackRead true s.sp
  modify fun s => (s.setG r v).setSp (s.sp + 2)

/-- The pops of CRG, RA first (R330). -/
def restoreRegisters : M Unit := do
  popToReg .ra
  popToReg .rb
  popToReg .rc
  popToReg .rd
  popToReg .re
  popToReg .rf

/-- HALT (R321). -/
def execHalt (s : State) : Result := .next { s with run := .halt }

/-- WAIT (R322). -/
def execWait (s : State) : Result := .next { s with run := .wait }

/-- NOP (R323). -/
def execNop (s : State) : Result := .next s

/-- RST (R324). -/
def execRst (s : State) : Result := runEvent resetSequence s

/-- EXS (R325). -/
def execExs (s : State) : Result := runM exchangeEntry s

/-- RTT (R326). -/
def execRtt (s : State) : Result := runM returnEntry s

/-- RTI (R327). -/
def execRti (s : State) : Result := runM returnEntry s

/-- BTP (R328). -/
def execBtp (s : State) : Result := enterEvent breakpointVector s

/-- SRG (R329). -/
def execSrg (s : State) : Result := runM saveRegisters s

/-- CRG (R330). -/
def execCrg (s : State) : Result := runM restoreRegisters s

/-- TRAPn (R331). -/
def execTrapn (n : BitVec 3) (s : State) : Result := enterEvent (softVector n) s

end Sys2Proof.Machine
end

