-- ==== Sys2Proof/Machine/Dispatch.lean ====
section
/-! DEFINITION. One arm per instruction, each a call of its meaning. -/

namespace Sys2Proof.Machine

def exec (i : Instr) (s : State) : Host.Outcome State Fault Refusal :=
  match i with
  | .add f d => Sys2Proof.Machine.execAdd f d s
  | .addb f d => Sys2Proof.Machine.execAddb f d s
  | .dac f d => Sys2Proof.Machine.execDac f d s
  | .dacb f d => Sys2Proof.Machine.execDacb f d s
  | .sub f d => Sys2Proof.Machine.execSub f d s
  | .subb f d => Sys2Proof.Machine.execSubb f d s
  | .dsb f d => Sys2Proof.Machine.execDsb f d s
  | .dsbb f d => Sys2Proof.Machine.execDsbb f d s
  | .cmp f d => Sys2Proof.Machine.execCmp f d s
  | .cmpb f d => Sys2Proof.Machine.execCmpb f d s
  | .and f d => Sys2Proof.Machine.execAnd f d s
  | .andb f d => Sys2Proof.Machine.execAndb f d s
  | .or f d => Sys2Proof.Machine.execOr f d s
  | .orb f d => Sys2Proof.Machine.execOrb f d s
  | .msk f d => Sys2Proof.Machine.execMsk f d s
  | .mskb f d => Sys2Proof.Machine.execMskb f d s
  | .xor f d => Sys2Proof.Machine.execXor f d s
  | .xorb f d => Sys2Proof.Machine.execXorb f d s
  | .xnr f d => Sys2Proof.Machine.execXnr f d s
  | .xnrb f d => Sys2Proof.Machine.execXnrb f d s
  | .coc f d => Sys2Proof.Machine.execCoc f d s
  | .cocb f d => Sys2Proof.Machine.execCocb f d s
  | .czc f d => Sys2Proof.Machine.execCzc f d s
  | .czcb f d => Sys2Proof.Machine.execCzcb f d s
  | .mov f d => Sys2Proof.Machine.execMov f d s
  | .movb f d => Sys2Proof.Machine.execMovb f d s
  | .exc f d => Sys2Proof.Machine.execExc f d s
  | .excb f d => Sys2Proof.Machine.execExcb f d s
  | .djz f d => Sys2Proof.Machine.execDjz f d s
  | .jsb f d => Sys2Proof.Machine.execJsb f d s
  | .neg d => Sys2Proof.Machine.execNeg d s
  | .negb d => Sys2Proof.Machine.execNegb d s
  | .inc d => Sys2Proof.Machine.execInc d s
  | .incb d => Sys2Proof.Machine.execIncb d s
  | .dcr d => Sys2Proof.Machine.execDcr d s
  | .dcrb d => Sys2Proof.Machine.execDcrb d s
  | .ict d => Sys2Proof.Machine.execIct d s
  | .ictb d => Sys2Proof.Machine.execIctb d s
  | .dct d => Sys2Proof.Machine.execDct d s
  | .dctb d => Sys2Proof.Machine.execDctb d s
  | .cmt d => Sys2Proof.Machine.execCmt d s
  | .cmtb d => Sys2Proof.Machine.execCmtb d s
  | .stz d => Sys2Proof.Machine.execStz d s
  | .stzb d => Sys2Proof.Machine.execStzb d s
  | .sto d => Sys2Proof.Machine.execSto d s
  | .stob d => Sys2Proof.Machine.execStob d s
  | .abs d => Sys2Proof.Machine.execAbs d s
  | .absb d => Sys2Proof.Machine.execAbsb d s
  | .adc d => Sys2Proof.Machine.execAdc d s
  | .adcb d => Sys2Proof.Machine.execAdcb d s
  | .sb d => Sys2Proof.Machine.execSb d s
  | .sbb d => Sys2Proof.Machine.execSbb d s
  | .cpz d => Sys2Proof.Machine.execCpz d s
  | .cpzb d => Sys2Proof.Machine.execCpzb d s
  | .sxt d => Sys2Proof.Machine.execSxt d s
  | .sxtb d => Sys2Proof.Machine.execSxtb d s
  | .sldl d => Sys2Proof.Machine.execSldl d s
  | .sdcl d => Sys2Proof.Machine.execSdcl d s
  | .rdcl d => Sys2Proof.Machine.execRdcl d s
  | .sadl d => Sys2Proof.Machine.execSadl d s
  | .rtdl d => Sys2Proof.Machine.execRtdl d s
  | .sld d => Sys2Proof.Machine.execSld d s
  | .sldb d => Sys2Proof.Machine.execSldb d s
  | .sdc d => Sys2Proof.Machine.execSdc d s
  | .sdcb d => Sys2Proof.Machine.execSdcb d s
  | .rdc d => Sys2Proof.Machine.execRdc d s
  | .rdcb d => Sys2Proof.Machine.execRdcb d s
  | .sad d => Sys2Proof.Machine.execSad d s
  | .sadb d => Sys2Proof.Machine.execSadb d s
  | .rtd d => Sys2Proof.Machine.execRtd d s
  | .rtdb d => Sys2Proof.Machine.execRtdb d s
  | .slel d => Sys2Proof.Machine.execSlel d s
  | .secl d => Sys2Proof.Machine.execSecl d s
  | .recl d => Sys2Proof.Machine.execRecl d s
  | .rtel d => Sys2Proof.Machine.execRtel d s
  | .sle d => Sys2Proof.Machine.execSle d s
  | .sleb d => Sys2Proof.Machine.execSleb d s
  | .sec d => Sys2Proof.Machine.execSec d s
  | .secb d => Sys2Proof.Machine.execSecb d s
  | .recw d => Sys2Proof.Machine.execRecw d s
  | .recb d => Sys2Proof.Machine.execRecb d s
  | .rte d => Sys2Proof.Machine.execRte d s
  | .rteb d => Sys2Proof.Machine.execRteb d s
  | .swb d => Sys2Proof.Machine.execSwb d s
  | .ret d => Sys2Proof.Machine.execRet d s
  | .jmp d => Sys2Proof.Machine.execJmp d s
  | .slp d => Sys2Proof.Machine.execSlp d s
  | .clp d => Sys2Proof.Machine.execClp d s
  | .smk d => Sys2Proof.Machine.execSmk d s
  | .cmk d => Sys2Proof.Machine.execCmk d s
  | .dmi d => Sys2Proof.Machine.execDmi d s
  | .mki d => Sys2Proof.Machine.execMki d s
  | .csps d => Sys2Proof.Machine.execCsps d s
  | .ssps d => Sys2Proof.Machine.execSsps d s
  | .sfgmb d => Sys2Proof.Machine.execSfgmb d s
  | .halt => Sys2Proof.Machine.execHalt s
  | .wait => Sys2Proof.Machine.execWait s
  | .nop => Sys2Proof.Machine.execNop s
  | .rst => Sys2Proof.Machine.execRst s
  | .exs => Sys2Proof.Machine.execExs s
  | .rtt => Sys2Proof.Machine.execRtt s
  | .rti => Sys2Proof.Machine.execRti s
  | .btp => Sys2Proof.Machine.execBtp s
  | .srg => Sys2Proof.Machine.execSrg s
  | .crg => Sys2Proof.Machine.execCrg s
  | .trapn n => Sys2Proof.Machine.execTrapn n s
  | .dr o => Sys2Proof.Machine.execDr o s
  | .dco o => Sys2Proof.Machine.execDco o s
  | .dcz o => Sys2Proof.Machine.execDcz o s
  | .dvo o => Sys2Proof.Machine.execDvo o s
  | .dvz o => Sys2Proof.Machine.execDvz o s
  | .dzo o => Sys2Proof.Machine.execDzo o s
  | .dzz o => Sys2Proof.Machine.execDzz o s
  | .dso o => Sys2Proof.Machine.execDso o s
  | .dsz o => Sys2Proof.Machine.execDsz o s
  | .dtao o => Sys2Proof.Machine.execDtao o s
  | .dtaz o => Sys2Proof.Machine.execDtaz o s
  | .dtbo o => Sys2Proof.Machine.execDtbo o s
  | .dtbz o => Sys2Proof.Machine.execDtbz o s
  | .dtco o => Sys2Proof.Machine.execDtco o s
  | .dtcz o => Sys2Proof.Machine.execDtcz o s
  | .dge o => Sys2Proof.Machine.execDge o s
  | .dlt o => Sys2Proof.Machine.execDlt o s
  | .dgt o => Sys2Proof.Machine.execDgt o s
  | .dle o => Sys2Proof.Machine.execDle o s
  | .dhi o => Sys2Proof.Machine.execDhi o s
  | .dls o => Sys2Proof.Machine.execDls o s
  | .dhs o => Sys2Proof.Machine.execDhs o s
  | .dlo o => Sys2Proof.Machine.execDlo o s
  | .erc k => Sys2Proof.Machine.execErc k s
  | .cfo k => Sys2Proof.Machine.execCfo k s
  | .cfz k => Sys2Proof.Machine.execCfz k s
  | .ccc k => Sys2Proof.Machine.execCcc k s
  | .cnm l => Sys2Proof.Machine.execCnm l s
  | .pfip a p => Sys2Proof.Machine.execPfip a p s
  | .pfim a b => Sys2Proof.Machine.execPfim a b s
  | .ipfp a p => Sys2Proof.Machine.execIpfp a p s
  | .ipfm a b => Sys2Proof.Machine.execIpfm a b s
  | .smpfp a p => Sys2Proof.Machine.execSmpfp a p s
  | .smpfm a b => Sys2Proof.Machine.execSmpfm a b s
  | .smip a p => Sys2Proof.Machine.execSmip a p s
  | .smim a b => Sys2Proof.Machine.execSmim a b s
  | .supfp a p => Sys2Proof.Machine.execSupfp a p s
  | .supfm a b => Sys2Proof.Machine.execSupfm a b s
  | .suip a p => Sys2Proof.Machine.execSuip a p s
  | .suim a b => Sys2Proof.Machine.execSuim a b s
  | .mlpfp a p => Sys2Proof.Machine.execMlpfp a p s
  | .mlpfm a b => Sys2Proof.Machine.execMlpfm a b s
  | .mlip a p => Sys2Proof.Machine.execMlip a p s
  | .mlim a b => Sys2Proof.Machine.execMlim a b s
  | .dvpfp a p => Sys2Proof.Machine.execDvpfp a p s
  | .dvpfm a b => Sys2Proof.Machine.execDvpfm a b s
  | .dvip a p => Sys2Proof.Machine.execDvip a p s
  | .dvim a b => Sys2Proof.Machine.execDvim a b s
  | .ngpfp a p => Sys2Proof.Machine.execNgpfp a p s
  | .ngpfm a b => Sys2Proof.Machine.execNgpfm a b s
  | .cmpfp a p => Sys2Proof.Machine.execCmpfp a p s
  | .cmpfm a b => Sys2Proof.Machine.execCmpfm a b s
  | .crpf a p => Sys2Proof.Machine.execCrpf a p s
  | .abpf a b => Sys2Proof.Machine.execAbpf a b s
  | .cri a p => Sys2Proof.Machine.execCri a p s
  | .absi a b => Sys2Proof.Machine.execAbsi a b s
  | .azpf a p => Sys2Proof.Machine.execAzpf a p s
  | .ngin a b => Sys2Proof.Machine.execNgin a b s
  | .azi a p => Sys2Proof.Machine.execAzi a p s
  | .cprgi a b => Sys2Proof.Machine.execCprgi a b s

end Sys2Proof.Machine
end

