-- ==== Sys2Proof/Machine/Boundary.lean ====
section
/-! DEFINITION. What happens around an instruction: boundary processing, interrupts, WAIT, HALT and the panel, the
instruction cycle, and the host inputs of the next step (60_exceptions.md sections 4 to 6). -/

namespace Sys2Proof.Machine

/-! ### Interrupts (60_exceptions.md R456 to R462) -/

/-- Level n is requested, not masked and not below the minimum level (R457, R458). -/
def State.accepts (s : State) (n : Nat) : Bool :=
  s.inp.pi.getLsbD n && !s.imk.getLsbD n && decide ((pswLevel s.psw).toNat ≤ n)

/-- `SelectInterrupt()` (R459). -/
def selectInterrupt (s : State) : Option Nat :=
  [15, 14, 13, 12, 11, 10, 9, 8, 7, 6, 5, 4, 3, 2, 1, 0].find? s.accepts

/-- `IntAck(n)`: told to the device, which may withdraw its request (R461; log 29). -/
def intAck (n : Nat) (s : State) : State :=
  { s with
    events := .intAck n :: s.events
    inp := { s.inp with
      pi := if s.inp.dropOnAck.getLsbD n then s.inp.pi &&& ~~~((1 : Word) <<< n) else s.inp.pi } }

/-- The interrupt loop of `Boundary2`; one entry only where `ENTRY_IS_BOUNDARY` is false (R455; log 22). -/
def interruptLoop : Nat → State → Result
  | 0, _ => .fault .entryChain
  | k + 1, s =>
    if s.run = .halt then .next s
    else
      match selectInterrupt s with
      | none => .next s
      | some n =>
        andThen (enterEvent (interruptVector n) (intAck n s)) fun t =>
          if t.cfg.entryIsBoundary then interruptLoop k t else .next t

/-! ### Boundary processing (60_exceptions.md R455) -/

/-- `Boundary2`: the breakpoint test, then the interrupts. -/
def boundary2 (s : State) : Result :=
  if s.bpArmed then
    andThen (enterEvent breakpointVector { s with bpArmed := false }) fun t =>
      if t.cfg.entryIsBoundary then interruptLoop entryFuel t else .next t
  else interruptLoop entryFuel s

/-- `PanelPARE` (R455, R470). -/
def applyPare (s : State) : State := if s.inp.pare then { s with run := .halt } else s

/-- `Boundary`: HALT first, then `Boundary2`. -/
def boundary (s : State) : Result :=
  let t := applyPare s
  if t.run = .halt then .next t else boundary2 t

/-! ### The instruction cycle (60_exceptions.md R469) -/

/-- An instruction of `BASE_EXEMPT_INSTR` (20_memory.md R78 c); log 6). -/
def Config.isExempt (c : Config) (w : Word) : Bool := c.baseExempt.any (fun e => w &&& e.1 == e.2)

/-- The physical addresses of the two words after an instruction (20_memory.md R91); `s` is the state after the fetch
of its instruction word, `ext` its number of extension words. -/
def nextAddresses (s : State) (ext : Nat) : List Word :=
  let a := s.pc + 2 * BitVec.ofNat 16 ext
  [s.relocStream a, s.relocStream a + 1, s.relocStream (a + 2), s.relocStream (a + 2) + 1]

/-- The bytes among `as` that the program's stores of this instruction wrote and that now hold something else, with
their contents before the first of these stores. -/
def missedCells (t : State) (as : List Word) : List Host.Cell :=
  as.filterMap fun a =>
    (t.stored.find? fun c => c.1 == a.toNat).filter fun c => c.2 != t.mem.readByte a.toNat

/-- The end of an instruction: what a prefetch may have missed (20_memory.md R91; log 7). -/
def endInstr (fetched : State) (ext : Nat) (t : State) : State :=
  { t with noBase := false, stored := [], stale := missedCells t (nextAddresses fetched ext) }

/-- The start of an instruction: `bp_armed <- PSW.B` (R447, R469). -/
def beginInstr (s : State) : State :=
  { s with bpArmed := pswB s.cfg.pswLayout s.psw, noBase := false, stored := [] }

/-- Execute a fetched instruction word, or take the invalid-operation-code trap (R448); then the boundary. -/
def runWord (w : Word) (s : State) : Result :=
  match decode s.cfg w with
  | .ok i =>
    andThen (andThen (exec i { s with noBase := Config.isExempt s.cfg w }) boundary) fun t =>
      .next (endInstr s i.extWords t)
  | .error _ => andThen (andThen (raiseInInstr .invalidOpcode s) boundary) fun t => .next (endInstr s 0 t)

/-- One instruction: fetch, execute, boundary (R469). -/
def runStep (s : State) : Result :=
  match fetch16 (beginInstr s) with
  | .ok w s1 => runWord w s1
  | .error (.trap t) s1 => andThen (andThen (raiseInInstr t s1) boundary) fun u => .next { u with stale := [] }
  | .error .halt s1 => .next { s1 with run := .halt }
  | .error (.refuse r) _ => .refused r

/-! ### HALT, WAIT and the panel (60_exceptions.md R466 to R470) -/

/-- One edit from the panel (R468). -/
def applyEdit (s : State) : PanelEdit → State
  | .reg .ra v => s.setG .ra v
  | .reg .rb v => s.setG .rb v
  | .reg .rc v => s.setG .rc v
  | .reg .rd v => s.setG .rd v
  | .reg .re v => s.setG .re v
  | .reg .rf v => s.setG .rf v
  | .reg .sp v => s.setSp v
  | .reg .pc v => s.setPc v
  | .reg .sps v => s.setSps v
  | .reg .lp v => s.setLp v
  | .reg .imk v => s.setMk v
  | .reg .psw v => s.setPsw v
  | .mem a v => { s with mem := s.mem.writeCells (Config.isRam s.cfg) [(a.toNat, v)] }

/-- A step in HALT: the panel edits; then EXECUTE, or one step and back to HALT, or nothing (R468 to R470; log 24). -/
def haltStep (s : State) : Result :=
  let t := s.inp.edits.foldl applyEdit s
  if t.inp.execute then boundary2 { t with run := .run }
  else if t.inp.stepOne then
    andThen (runStep { t with run := .run }) fun u => .next { u with run := .halt }
  else .next t

/-- A step in WAIT (R467, R469; log 23). -/
def waitStep (s : State) : Result :=
  if s.inp.pare then .next { s with run := .halt } else interruptLoop entryFuel s

/-- `Step` on the inputs of this step (R469). A panel RESET ends its step: where a fault of its vector read makes an
entry, no boundary follows that entry (DESIGN CHOICE, log 14). -/
def stepNow (s : State) : Result :=
  if s.inp.reset then runEvent resetSequence s
  else
    match s.run with
    | .halt => haltStep s
    | .wait => waitStep s
    | .run => runStep s

/-! ### Host inputs -/

/-- The inputs of the next step: the next record of the script, or the same levels with nothing pressed; an ASTROM that
is switched off keeps nothing any rule states (47_astrom.md R380; logs 19 and 29). -/
def advanceInputs (s : State) : State :=
  match s.script with
  | [] =>
    { s with inp := { s.inp with reset := false, pare := false, execute := false, stepOne := false, edits := [] } }
  | i :: rest =>
    if s.inp.upfok && !i.upfok then
      let u := Config.astromUnset s.freeCount
      { s with inp := i, script := rest, m := u.1, mf := u.2, freeCount := s.freeCount + 1 }
    else { s with inp := i, script := rest }

/-- An instruction of at most three words placed where the next fetch reads it. -/
def placeAtPc (s : State) (nbits w : Nat) : Memory :=
  let v := w % 2 ^ nbits
  ((s.mem.write true (s.relocStream s.pc) (BitVec.ofNat 16 v)).write true (s.relocStream (s.pc + 2))
    (BitVec.ofNat 16 (v / 2 ^ 16))).write true (s.relocStream (s.pc + 4)) (BitVec.ofNat 16 (v / 2 ^ 32))

end Sys2Proof.Machine
end

