-- ==== Sys2Proof/Machine/Step.lean ====
section
/-! DEFINITION. One step of the machine. -/

namespace Sys2Proof.Machine

/-- One step on the inputs of this step (60_exceptions.md R469), then the inputs of the next (log 29). -/
def step (s : State) : Host.Outcome State Fault Refusal := andThen (stepNow s) fun t => .next (advanceInputs t)

/-- The instruction `w` placed at PC, the processor in RUN and no reset pressed, so that the next step runs it (log 30);
no ADMP edit falls before its fetch and no prefetched word is left from before. -/
def State.withFetchWord (s : State) (nbits w : Nat) : State :=
  { s with
    mem := placeAtPc s nbits w
    run := .run
    inp := { s.inp with reset := false }
    admp := []
    stale := [] }

end Sys2Proof.Machine
end

