-- ==== Sys2Proof/Safety.lean ====
section
/-! DEFINITION. The terms the statements are written in: the invariant of the machine, an undisturbed bus, which
operands and registers an instruction names as written (10_state.md R25, R44), and the words that are no instruction
(30_encoding.md R129). -/

namespace Sys2Proof.Machine

/-! ### The invariant -/

/-- What holds between any two steps: the stuck bits of 10_state.md R26, R27, R28 and R32, memory in its canonical form,
and no instruction in progress. -/
structure State.Inv (s : State) : Prop where
  sp_even : s.sp.getLsbD 0 = false
  pc_even : s.pc.getLsbD 0 = false
  sps_even : s.sps.getLsbD 0 = false
  mk_bit15 : s.imk.getLsbD 15 = false
  mem_wf : s.mem.wf = true
  no_base : s.noBase = false
  no_stored : s.stored = []

/-- Nothing disturbs the bus: no ADMP edit to come, no word stored to before its fetch, every slave answers, no parity
error. -/
structure State.calm (s : State) : Prop where
  no_admp : s.admp = []
  no_stale : s.stale = []
  no_silent_read : s.cfg.silentReads = []
  no_silent_write : s.cfg.silentWrites = []
  no_parity : s.cfg.badParity = []

/-- A physical address belongs to plain memory. -/
def State.memoryAt (s : State) (pa : Word) : Bool :=
  Config.slaveAt s.cfg pa.toNat == some .ram || Config.slaveAt s.cfg pa.toNat == some .rom

/-- A physical address belongs to memory that can be written. -/
def State.ramAt (s : State) (pa : Word) : Bool := Config.slaveAt s.cfg pa.toNat == some .ram

/-- No region of `MEM_MAP` is read-only. -/
def State.noRom (s : State) : Bool := s.cfg.memMap.all (fun r => r.kind != .rom)

end Sys2Proof.Machine

namespace Sys2Proof

/-! ### What an instruction names as written -/

/-- The operands an instruction writes (41_two_operand.md to 47_astrom.md). -/
def Instr.written : Instr → List Operand
  | .add _ d | .addb _ d | .dac _ d | .dacb _ d | .sub _ d | .subb _ d | .dsb _ d | .dsbb _ d | .and _ d
  | .andb _ d | .or _ d | .orb _ d | .msk _ d | .mskb _ d | .xor _ d | .xorb _ d | .xnr _ d | .xnrb _ d | .mov _ d
  | .movb _ d => [d]
  | .exc f d | .excb f d => [f, d]
  | .djz f _ | .jsb f _ => [f]
  | .neg d | .negb d | .inc d | .incb d | .dcr d | .dcrb d | .ict d | .ictb d | .dct d | .dctb d | .cmt d | .cmtb d
  | .stz d | .stzb d | .sto d | .stob d | .abs d | .absb d | .adc d | .adcb d | .sb d | .sbb d | .sxt d | .sxtb d
  | .swb d | .sld d | .sldb d | .sdc d | .sdcb d | .rdc d | .rdcb d | .sad d | .sadb d | .rtd d | .rtdb d | .sle d
  | .sleb d | .sec d | .secb d | .recw d | .recb d | .rte d | .rteb d | .slp d | .smk d | .ssps d | .sfgmb d
  | .ret d | .sldl d | .sdcl d | .rdcl d | .sadl d | .rtdl d | .slel d | .secl d | .recl d | .rtel d => [d]
  | .azi _ p | .azpf _ p => [p]
  | .cmp _ _ | .cmpb _ _ | .coc _ _ | .cocb _ _ | .czc _ _ | .czcb _ _ | .cpz _ | .cpzb _ | .jmp _ | .clp _
  | .cmk _ | .dmi _ | .mki _ | .csps _ | .halt | .wait | .nop | .rst | .exs | .rtt | .rti | .btp | .srg | .crg
  | .trapn _ | .dr _ | .dco _ | .dcz _ | .dvo _ | .dvz _ | .dzo _ | .dzz _ | .dso _ | .dsz _ | .dtao _ | .dtaz _
  | .dtbo _ | .dtbz _ | .dtco _ | .dtcz _ | .dge _ | .dlt _ | .dgt _ | .dle _ | .dhi _ | .dls _ | .dhs _ | .dlo _
  | .erc _ | .cfo _ | .cfz _ | .ccc _ | .cnm _ | .pfip _ _ | .ipfp _ _ | .smpfp _ _ | .smip _ _ | .supfp _ _
  | .suip _ _ | .mlpfp _ _ | .mlip _ _ | .dvpfp _ _ | .dvip _ _ | .ngpfp _ _ | .cmpfp _ _ | .crpf _ _ | .cri _ _
  | .pfim _ _ | .ipfm _ _ | .smpfm _ _ | .smim _ _ | .supfm _ _ | .suim _ _ | .mlpfm _ _ | .mlim _ _ | .dvpfm _ _
  | .dvim _ _ | .ngpfm _ _ | .cmpfm _ _ | .abpf _ _ | .absi _ _ | .ngin _ _ | .cprgi _ _ => []

/-- The operand of the instruction is a long word (40_addressing_modes.md R166). -/
def Instr.writesPair (i : Instr) : Bool :=
  match i.shape with
  | .long _ => true
  | .two _ _ | .one _ | .none => false

/-- The instruction has byte operands (bit 15 is 0; 30_encoding.md R110). -/
def Instr.isByte : Instr → Bool
  | .addb _ _ | .dacb _ _ | .subb _ _ | .dsbb _ _ | .cmpb _ _ | .andb _ _ | .orb _ _ | .mskb _ _ | .xorb _ _
  | .xnrb _ _ | .cocb _ _ | .czcb _ _ | .movb _ _ | .excb _ _ | .negb _ | .incb _ | .dcrb _ | .ictb _ | .dctb _
  | .cmtb _ | .stzb _ | .stob _ | .absb _ | .adcb _ | .sbb _ | .cpzb _ | .sxtb _ | .sldb _ | .sdcb _ | .rdcb _
  | .sadb _ | .rtdb _ | .sleb _ | .secb _ | .recb _ | .rteb _ | .sfgmb _ => true
  | .add _ _ | .dac _ _ | .sub _ _ | .dsb _ _ | .cmp _ _ | .and _ _ | .or _ _ | .msk _ _ | .xor _ _ | .xnr _ _
  | .coc _ _ | .czc _ _ | .mov _ _ | .exc _ _ | .djz _ _ | .jsb _ _ | .neg _ | .inc _ | .dcr _ | .ict _ | .dct _
  | .cmt _ | .stz _ | .sto _ | .abs _ | .adc _ | .sb _ | .cpz _ | .sxt _ | .sldl _ | .sdcl _ | .rdcl _ | .sadl _
  | .rtdl _ | .sld _ | .sdc _ | .rdc _ | .sad _ | .rtd _ | .slel _ | .secl _ | .recl _ | .rtel _ | .sle _ | .sec _
  | .recw _ | .rte _ | .swb _ | .ret _ | .jmp _ | .slp _ | .clp _ | .smk _ | .cmk _ | .dmi _ | .mki _ | .csps _
  | .ssps _ | .halt | .wait | .nop | .rst | .exs | .rtt | .rti | .btp | .srg | .crg | .trapn _ | .dr _ | .dco _
  | .dcz _ | .dvo _ | .dvz _ | .dzo _ | .dzz _ | .dso _ | .dsz _ | .dtao _ | .dtaz _ | .dtbo _ | .dtbz _ | .dtco _
  | .dtcz _ | .dge _ | .dlt _ | .dgt _ | .dle _ | .dhi _ | .dls _ | .dhs _ | .dlo _ | .erc _ | .cfo _ | .cfz _
  | .ccc _ | .cnm _ | .pfip _ _ | .pfim _ _ | .ipfp _ _ | .ipfm _ _ | .smpfp _ _ | .smpfm _ _ | .smip _ _
  | .smim _ _ | .supfp _ _ | .supfm _ _ | .suip _ _ | .suim _ _ | .mlpfp _ _ | .mlpfm _ _ | .mlip _ _ | .mlim _ _
  | .dvpfp _ _ | .dvpfm _ _ | .dvip _ _ | .dvim _ _ | .ngpfp _ _ | .ngpfm _ _ | .cmpfp _ _ | .cmpfm _ _ | .crpf _ _
  | .abpf _ _ | .cri _ _ | .absi _ _ | .azpf _ _ | .ngin _ _ | .azi _ _ | .cprgi _ _ => false

/-- A pair contains a register. -/
def pairHas (p : Machine.Pair) (r : GReg) : Bool := r == Machine.pairDeclared p || r == Machine.pairPartner p

/-- General register r is a destination of the instruction (10_state.md R25). -/
def Instr.writesG (i : Instr) (r : GReg) : Bool :=
  match i with
  | .crg => true
  | j =>
    if j.writesPair then j.written.any (fun o => (Machine.pairOf o).any (fun p => pairHas p r))
    else decide (Operand.direct r ∈ j.written)

/-- The operands of an instruction, in the order they are located. -/
def Instr.operands (i : Instr) : List Operand :=
  match i.shape with
  | .two f d => [f, d]
  | .one p => [p]
  | .long p => [p]
  | .none => []

/-- SP may change: by an operand mode, as a destination, or as the stack pointer of JSB, RET, SRG and CRG
(10_state.md R26). -/
def Instr.writesSp (i : Instr) : Bool :=
  match i with
  | .jsb _ _ | .ret _ | .srg | .crg | .rst => true
  | j => decide (Operand.spDirect ∈ j.written) ||
      j.operands.any (fun o => decide (o = .autodec) || decide (o = .autoinc))

/-- The instruction moves or loads SPS itself, or is an entry, a return or a reset (10_state.md R27). -/
def Instr.writesSps : Instr → Bool
  | .csps _ | .rst | .exs | .rtt | .rti | .btp | .trapn _ => true
  | .add _ _ | .addb _ _ | .dac _ _ | .dacb _ _ | .sub _ _ | .subb _ _ | .dsb _ _ | .dsbb _ _ | .cmp _ _
  | .cmpb _ _ | .and _ _ | .andb _ _ | .or _ _ | .orb _ _ | .msk _ _ | .mskb _ _ | .xor _ _ | .xorb _ _ | .xnr _ _
  | .xnrb _ _ | .coc _ _ | .cocb _ _ | .czc _ _ | .czcb _ _ | .mov _ _ | .movb _ _ | .exc _ _ | .excb _ _
  | .djz _ _ | .jsb _ _ | .neg _ | .negb _ | .inc _ | .incb _ | .dcr _ | .dcrb _ | .ict _ | .ictb _ | .dct _
  | .dctb _ | .cmt _ | .cmtb _ | .stz _ | .stzb _ | .sto _ | .stob _ | .abs _ | .absb _ | .adc _ | .adcb _ | .sb _
  | .sbb _ | .cpz _ | .cpzb _ | .sxt _ | .sxtb _ | .sldl _ | .sdcl _ | .rdcl _ | .sadl _ | .rtdl _ | .sld _
  | .sldb _ | .sdc _ | .sdcb _ | .rdc _ | .rdcb _ | .sad _ | .sadb _ | .rtd _ | .rtdb _ | .slel _ | .secl _
  | .recl _ | .rtel _ | .sle _ | .sleb _ | .sec _ | .secb _ | .recw _ | .recb _ | .rte _ | .rteb _ | .swb _
  | .ret _ | .jmp _ | .slp _ | .clp _ | .smk _ | .cmk _ | .dmi _ | .mki _ | .ssps _ | .sfgmb _ | .halt | .wait
  | .nop | .srg | .crg | .dr _ | .dco _ | .dcz _ | .dvo _ | .dvz _ | .dzo _ | .dzz _ | .dso _ | .dsz _ | .dtao _
  | .dtaz _ | .dtbo _ | .dtbz _ | .dtco _ | .dtcz _ | .dge _ | .dlt _ | .dgt _ | .dle _ | .dhi _ | .dls _ | .dhs _
  | .dlo _ | .erc _ | .cfo _ | .cfz _ | .ccc _ | .cnm _ | .pfip _ _ | .pfim _ _ | .ipfp _ _ | .ipfm _ _
  | .smpfp _ _ | .smpfm _ _ | .smip _ _ | .smim _ _ | .supfp _ _ | .supfm _ _ | .suip _ _ | .suim _ _ | .mlpfp _ _
  | .mlpfm _ _ | .mlip _ _ | .mlim _ _ | .dvpfp _ _ | .dvpfm _ _ | .dvip _ _ | .dvim _ _ | .ngpfp _ _ | .ngpfm _ _
  | .cmpfp _ _ | .cmpfm _ _ | .crpf _ _ | .abpf _ _ | .cri _ _ | .absi _ _ | .azpf _ _ | .ngin _ _ | .azi _ _
  | .cprgi _ _ => false

/-- One of the 32 instructions of the ASTROM (47_astrom.md R380). -/
def Instr.isAstrom : Instr → Bool
  | .azi _ _ | .azpf _ _ | .pfip _ _ | .ipfp _ _ | .smpfp _ _ | .smip _ _ | .supfp _ _ | .suip _ _ | .mlpfp _ _
  | .mlip _ _ | .dvpfp _ _ | .dvip _ _ | .ngpfp _ _ | .cmpfp _ _ | .crpf _ _ | .cri _ _ | .pfim _ _ | .ipfm _ _
  | .smpfm _ _ | .smim _ _ | .supfm _ _ | .suim _ _ | .mlpfm _ _ | .mlim _ _ | .dvpfm _ _ | .dvim _ _ | .ngpfm _ _
  | .cmpfm _ _ | .abpf _ _ | .absi _ _ | .ngin _ _ | .cprgi _ _ => true
  | .add _ _ | .addb _ _ | .dac _ _ | .dacb _ _ | .sub _ _ | .subb _ _ | .dsb _ _ | .dsbb _ _ | .cmp _ _
  | .cmpb _ _ | .and _ _ | .andb _ _ | .or _ _ | .orb _ _ | .msk _ _ | .mskb _ _ | .xor _ _ | .xorb _ _ | .xnr _ _
  | .xnrb _ _ | .coc _ _ | .cocb _ _ | .czc _ _ | .czcb _ _ | .mov _ _ | .movb _ _ | .exc _ _ | .excb _ _
  | .djz _ _ | .jsb _ _ | .neg _ | .negb _ | .inc _ | .incb _ | .dcr _ | .dcrb _ | .ict _ | .ictb _ | .dct _
  | .dctb _ | .cmt _ | .cmtb _ | .stz _ | .stzb _ | .sto _ | .stob _ | .abs _ | .absb _ | .adc _ | .adcb _ | .sb _
  | .sbb _ | .cpz _ | .cpzb _ | .sxt _ | .sxtb _ | .sldl _ | .sdcl _ | .rdcl _ | .sadl _ | .rtdl _ | .sld _
  | .sldb _ | .sdc _ | .sdcb _ | .rdc _ | .rdcb _ | .sad _ | .sadb _ | .rtd _ | .rtdb _ | .slel _ | .secl _
  | .recl _ | .rtel _ | .sle _ | .sleb _ | .sec _ | .secb _ | .recw _ | .recb _ | .rte _ | .rteb _ | .swb _
  | .ret _ | .jmp _ | .slp _ | .clp _ | .smk _ | .cmk _ | .dmi _ | .mki _ | .csps _ | .ssps _ | .sfgmb _ | .halt
  | .wait | .nop | .rst | .exs | .rtt | .rti | .btp | .srg | .crg | .trapn _ | .dr _ | .dco _ | .dcz _ | .dvo _
  | .dvz _ | .dzo _ | .dzz _ | .dso _ | .dsz _ | .dtao _ | .dtaz _ | .dtbo _ | .dtbz _ | .dtco _ | .dtcz _ | .dge _
  | .dlt _ | .dgt _ | .dle _ | .dhi _ | .dls _ | .dhs _ | .dlo _ | .erc _ | .cfo _ | .cfz _ | .ccc _ | .cnm _ =>
    false

/-- The instruction writes nothing to memory: no written operand is in memory, and nothing is pushed. -/
def Instr.storesNothing (i : Instr) : Bool :=
  match i with
  | .jsb _ _ | .srg => false
  | j => j.written.all (fun o =>
      match o with
      | .direct _ | .spDirect => true
      | .indirect _ | .indexed _ | .indexedIndirect _ | .autodec | .autoinc | .stackTop | .immediate | .absolute
      | .relative | .relativeIndirect => false)

end Sys2Proof

namespace Sys2Proof.Machine

/-- The physical addresses a write of n bits to a location stores to (40_addressing_modes.md R165). -/
def storedBytes (n : Nat) (l : Loc) (s : State) : List Nat :=
  let bytes (pa : Word) : List Nat := if isWide n then [pa.toNat, (pa + 1).toNat] else [pa.toNat]
  match l with
  | .reg _ | .spReg => []
  | .mem a => bytes (s.reloc a)
  | .imm a => bytes (s.relocStream a)
  | .pstk a => bytes a

/-! ### The summary of flag writers (10_state.md R44) -/

/-- What an instruction does to one condition code: `-`, `0`, `1` or `*`. -/
inductive FlagEffect where
  | kept | zero | one | byResult
  deriving DecidableEq, Repr

/-- A row of R44: C, V, Z, S. -/
structure FlagRow where
  c : FlagEffect
  v : FlagEffect
  z : FlagEffect
  s : FlagEffect
  deriving DecidableEq, Repr

end Sys2Proof.Machine

namespace Sys2Proof

/-- The row of an instruction; none for those that load or mask the whole group of codes. -/
def Instr.flagRow : Instr → Option Machine.FlagRow
  | .add _ _ | .addb _ _ | .dac _ _ | .dacb _ _ | .sub _ _ | .subb _ _ | .dsb _ _ | .dsbb _ _ | .cmp _ _
  | .cmpb _ _ | .neg _ | .negb _ | .adc _ | .adcb _ | .sb _ | .sbb _ =>
    some ⟨.byResult, .byResult, .byResult, .byResult⟩
  | .and _ _ | .andb _ _ | .or _ _ | .orb _ _ | .msk _ _ | .mskb _ _ | .xor _ _ | .xorb _ _ | .xnr _ _ | .xnrb _ _
  | .coc _ _ | .cocb _ _ | .czc _ _ | .czcb _ _ | .mov _ _ | .movb _ _ | .exc _ _ | .excb _ _ | .cmt _ | .cmtb _
  | .swb _ | .sld _ | .sldb _ | .sldl _ | .sad _ | .sadb _ | .sadl _ | .rtd _ | .rtdb _ | .rtdl _ | .sle _
  | .sleb _ | .slel _ | .rte _ | .rteb _ | .rtel _ => some ⟨.kept, .zero, .byResult, .byResult⟩
  | .sdc _ | .sdcb _ | .sdcl _ => some ⟨.zero, .zero, .byResult, .byResult⟩
  | .rdc _ | .rdcb _ | .rdcl _ | .sec _ | .secb _ | .secl _ | .recw _ | .recb _ | .recl _ =>
    some ⟨.byResult, .zero, .byResult, .byResult⟩
  | .inc _ | .incb _ | .dcr _ | .dcrb _ | .ict _ | .ictb _ | .dct _ | .dctb _ | .djz _ _ =>
    some ⟨.kept, .byResult, .byResult, .byResult⟩
  | .stz _ | .stzb _ => some ⟨.kept, .zero, .one, .zero⟩
  | .sto _ | .stob _ => some ⟨.kept, .zero, .zero, .one⟩
  | .abs _ | .absb _ => some ⟨.zero, .byResult, .byResult, .byResult⟩
  | .cpz _ | .cpzb _ => some ⟨.zero, .zero, .byResult, .byResult⟩
  | .sxt _ | .sxtb _ => some ⟨.kept, .zero, .byResult, .kept⟩
  | .jsb _ _ | .ret _ | .jmp _ | .slp _ | .clp _ | .smk _ | .cmk _ | .dmi _ | .mki _ | .csps _ | .ssps _ | .sfgmb _
  | .halt | .wait | .nop | .srg | .crg | .dr _ | .dco _ | .dcz _ | .dvo _ | .dvz _ | .dzo _ | .dzz _ | .dso _
  | .dsz _ | .dtao _ | .dtaz _ | .dtbo _ | .dtbz _ | .dtco _ | .dtcz _ | .dge _ | .dlt _ | .dgt _ | .dle _ | .dhi _
  | .dls _ | .dhs _ | .dlo _ | .cnm _ | .azi _ _ | .azpf _ _ | .pfip _ _ | .ipfp _ _ | .smpfp _ _ | .smip _ _
  | .supfp _ _ | .suip _ _ | .mlpfp _ _ | .mlip _ _ | .dvpfp _ _ | .dvip _ _ | .ngpfp _ _ | .cmpfp _ _ | .crpf _ _
  | .cri _ _ | .pfim _ _ | .ipfm _ _ | .smpfm _ _ | .smim _ _ | .supfm _ _ | .suim _ _ | .mlpfm _ _ | .mlim _ _
  | .dvpfm _ _ | .dvim _ _ | .ngpfm _ _ | .cmpfm _ _ | .abpf _ _ | .absi _ _ | .ngin _ _ | .cprgi _ _ =>
    some ⟨.kept, .kept, .kept, .kept⟩
  | .erc _ | .cfo _ | .cfz _ | .ccc _ | .rst | .exs | .rtt | .rti | .btp | .trapn _ => none

end Sys2Proof

namespace Sys2Proof.Machine

/-- A code before and after an instruction agrees with its effect. -/
def FlagEffect.allows (e : FlagEffect) (before after : Bool) : Prop :=
  match e with
  | .kept => after = before
  | .zero => after = false
  | .one => after = true
  | .byResult => True

/-! ### The words that are no instruction (30_encoding.md R129 (a) to (f)) -/

/-- Operation codes of 30_encoding.md R129 (c): unassigned in either size. -/
def unassignedOp6 (op6 : Nat) : Bool :=
  op6 == 14 || op6 == 15 || (decide (26 ≤ op6) && decide (op6 ≤ 31)) || (decide (40 ≤ op6) && decide (op6 ≤ 42)) ||
    (decide (44 ≤ op6) && decide (op6 ≤ 47)) || decide (59 ≤ op6)

/-- Operation codes of 30_encoding.md R129 (d): word or long-word forms only. -/
def wordOnlyOp6 (op6 : Nat) : Bool :=
  (decide (16 ≤ op6) && decide (op6 ≤ 20)) || (decide (32 ≤ op6) && decide (op6 ≤ 35)) || op6 == 43 ||
    (decide (48 ≤ op6) && decide (op6 ≤ 57))

/-- 30_encoding.md R129 (a) to (f). -/
def unassignedWord (w : Word) : Bool :=
  let word := w.getLsbD 15
  let op5 := (w.extractLsb' 10 5).toNat
  let op6 := (w.extractLsb' 5 6).toNat
  let low := (w.extractLsb' 0 5).toNat
  let op8 := (w.extractLsb' 8 8).toNat
  (decide (20 ≤ op5) && decide (op5 ≤ 27)) ||
  (!word && (op5 == 18 || op5 == 19)) ||
  ((w.extractLsb' 11 4).toNat == 0 && op6 != 0 &&
    (unassignedOp6 op6 || (!word && wordOnlyOp6 op6) || (word && op6 == 58))) ||
  ((w.extractLsb' 11 4).toNat == 0 && op6 == 0 && !word && decide (4 ≤ low)) ||
  ((w.extractLsb' 11 4).toNat == 0 && op6 == 0 && word &&
    (decide (low ≤ 3) || low == 6 || (decide (10 ≤ low) && decide (low ≤ 23)))) ||
  (op8 == 0x79 || op8 == 0x7F || op8 == 0xF6 || op8 == 0xF7 || op8 == 0xFE || op8 == 0xFF)

/-! ### The instructions of one shape, each with its computation -/

/-- Word instructions that read two operands and write the second (41_two_operand.md). -/
def wordTwo : List ((Operand → Operand → Instr) × (Word → Word → Word → Word × Word)) :=
  [(.add, aluAdd), (.dac, aluDac), (.sub, aluSub), (.dsb, aluDsb), (.and, aluAnd), (.or, aluOr), (.msk, aluMsk),
    (.xor, aluXor), (.xnr, aluXnr)]

/-- Their byte forms. -/
def byteTwo : List ((Operand → Operand → Instr) × (Byte → Byte → Word → Byte × Word)) :=
  [(.addb, aluAdd), (.dacb, aluDac), (.subb, aluSub), (.dsbb, aluDsb), (.andb, aluAnd), (.orb, aluOr),
    (.mskb, aluMsk), (.xorb, aluXor), (.xnrb, aluXnr)]

/-- Word instructions that read two operands and write none. -/
def wordCompare : List ((Operand → Operand → Instr) × (Word → Word → Word → Word × Word)) :=
  [(.cmp, aluCmp), (.coc, aluCoc), (.czc, aluCzc)]

/-- Their byte forms. -/
def byteCompare : List ((Operand → Operand → Instr) × (Byte → Byte → Word → Byte × Word)) :=
  [(.cmpb, aluCmp), (.cocb, aluCoc), (.czcb, aluCzc)]

/-- Word instructions that read and write one operand (42_one_operand_arith.md, 43_shift_rotate.md). -/
def wordOne : List ((Operand → Instr) × (Word → Word → Word × Word)) :=
  [(.neg, aluNeg), (.inc, aluInc), (.dcr, aluDcr), (.ict, aluIct), (.dct, aluDct), (.cmt, aluCmt), (.adc, aluAdc),
    (.sb, aluSb), (.swb, aluSwb), (.sld, aluShift shSld), (.sdc, aluShift shSdc), (.rdc, aluShift shRdc),
    (.sad, aluShift shSad), (.rtd, aluShift shRtd), (.sle, aluShift shSle), (.sec, aluShift shSec),
    (.recw, aluShift shRec), (.rte, aluShift shRte)]

/-- Byte instructions that read and write one operand. -/
def byteOne : List ((Operand → Instr) × (Byte → Word → Byte × Word)) :=
  [(.negb, aluNeg), (.incb, aluInc), (.dcrb, aluDcr), (.ictb, aluIct), (.dctb, aluDct), (.cmtb, aluCmt),
    (.adcb, aluAdc), (.sbb, aluSb), (.sldb, aluShift shSld), (.sdcb, aluShift shSdc), (.rdcb, aluShift shRdc),
    (.sadb, aluShift shSad), (.rtdb, aluShift shRtd), (.sleb, aluShift shSle), (.secb, aluShift shSec),
    (.recb, aluShift shRec), (.rteb, aluShift shRte)]

/-- Word instructions that write an operand without reading it. -/
def wordStore : List ((Operand → Instr) × (Word → Word × Word)) := [(.stz, aluStz), (.sto, aluSto), (.sxt, aluSxt)]

/-- Their byte forms. -/
def byteStore : List ((Operand → Instr) × (Word → Byte × Word)) := [(.stzb, aluStz), (.stob, aluSto), (.sxtb, aluSxt)]

/-- The long shifts (43_shift_rotate.md R261). -/
def longShifts : List ((Operand → Instr) × ShiftRule 32) :=
  [(.sldl, shSld), (.sdcl, shSdc), (.rdcl, shRdc), (.sadl, shSad), (.rtdl, shRtd), (.slel, shSle), (.secl, shSec),
    (.recl, shRec), (.rtel, shRte)]

/-- The relative branches and their conditions (46_parameter.md R341 to R363). -/
def branches : List ((BitVec 8 → Instr) × (Word → Bool)) :=
  [(.dr, fun _ => true), (.dco, pswC), (.dcz, fun p => !pswC p), (.dvo, pswV), (.dvz, fun p => !pswV p),
    (.dzo, pswZ), (.dzz, fun p => !pswZ p), (.dso, pswS), (.dsz, fun p => !pswS p), (.dtao, pswT1),
    (.dtaz, fun p => !pswT1 p), (.dtbo, pswT2), (.dtbz, fun p => !pswT2 p), (.dtco, pswT3),
    (.dtcz, fun p => !pswT3 p), (.dge, fun p => pswS p == pswV p), (.dlt, fun p => pswS p != pswV p),
    (.dgt, fun p => !(pswZ p || (pswS p != pswV p))), (.dle, fun p => pswZ p || (pswS p != pswV p)),
    (.dhi, fun p => !(pswC p || pswZ p)), (.dls, fun p => pswC p || pswZ p), (.dhs, fun p => !pswC p), (.dlo, pswC)]

/-- The integer instructions of the ASTROM with an ASTROP operand (47_astrom.md section 4). -/
def astromIntP : List ((AcReg → Operand → Instr) × AstromOp) :=
  [(.smip, .add), (.suip, .sub), (.mlip, .mul), (.dvip, .div)]

/-- The integer instructions of the ASTROM on two of its registers. -/
def astromIntM : List ((AcReg → AcReg → Instr) × AstromOp) :=
  [(.smim, .add), (.suim, .sub), (.mlim, .mul), (.dvim, .div), (.ngin, .neg), (.absi, .abs)]

/-- The floating-point instructions with a register pair, whether they write AC1, and their functions. -/
def astromFloatP : List ((AcReg → Operand → Instr) × Bool × (Config → Long → Long → Long × AstromCodes)) :=
  [(.smpfp, true, faddOp), (.supfp, true, fsubOp), (.mlpfp, true, fmulOp), (.dvpfp, true, fdivOp),
    (.ngpfp, true, fnegOp), (.cmpfp, false, fsubOp), (.pfip, true, ftoiOp)]

/-- The floating-point instructions on two registers of the ASTROM. -/
def astromFloatM : List ((AcReg → AcReg → Instr) × Bool × (Config → Long → Long → Long × AstromCodes)) :=
  [(.smpfm, true, faddOp), (.supfm, true, fsubOp), (.mlpfm, true, fmulOp), (.dvpfm, true, fdivOp),
    (.ngpfm, true, fnegOp), (.abpf, true, fabsOp), (.cmpfm, false, fsubOp), (.pfim, true, ftoiOp)]

/-! ### Room for entries, returns and pushes -/

/-- Two words can be pushed on the system stack and a vector can be read (60_exceptions.md R450; 20_memory.md R81). -/
structure State.entryRoom (s : State) (vec : Word) : Prop where
  calm : s.calm
  mem_wf : s.mem.wf = true
  sps_even : s.sps.getLsbD 0 = false
  sps_four : 4 ≤ s.sps.toNat
  sps_top : s.sps.toNat ≤ 0xF800
  above_lp : s.lp.toNat + 4 ≤ s.sps.toNat
  ram_pc : s.ramAt (s.sps - 2) = true
  ram_psw : s.ramAt (s.sps - 4) = true
  vec_high : 0xF800 ≤ vec.toNat
  vec_even : vec.getLsbD 0 = false
  vec_last : vec.toNat ≤ 0xFFFC
  vec_psw : s.memoryAt vec = true
  vec_pc : s.memoryAt (vec + 2) = true

/-- The state after an entry with room (60_exceptions.md R450): PC above PSW on the system stack, both loaded from the
vector. -/
def entryState (savedPc vec : Word) (s : State) : State :=
  { s with
    sps := s.sps - 4
    mem := (s.mem.write true (s.sps - 2) savedPc).write true (s.sps - 4) s.psw
    psw := s.mem.read true vec
    pc := s.mem.read true (vec + 2) &&& 0xFFFE
    run := .run }

/-- The two words on top of the system stack can be popped (20_memory.md R81). -/
structure State.returnRoom (s : State) : Prop where
  calm : s.calm
  sps_even : s.sps.getLsbD 0 = false
  sps_top : s.sps.toNat ≤ 0xF7FC
  above_lp : s.lp.toNat ≤ s.sps.toNat
  mem_psw : s.memoryAt s.sps = true
  mem_pc : s.memoryAt (s.sps + 2) = true

/-- Six words of RAM at an address, all inside the stack limits: what SRG pushes to and CRG pops from
(45_zero_operand.md R329, R330). -/
structure State.frameAt (s : State) (a : Word) : Prop where
  calm : s.calm
  mem_wf : s.mem.wf = true
  even : a.getLsbD 0 = false
  top : a.toNat + 12 ≤ 0xF800
  above_lp : s.lp.toNat ≤ a.toNat
  ram : ∀ k < 6, s.ramAt (a + 2 * BitVec.ofNat 16 k) = true

end Sys2Proof.Machine
end

