-- ==== Sys2Proof/Certificates/Slice0/Obligations.lean ====
section
/-! DEFINITION. The statements for the provers. -/

open Sys2Proof Sys2Proof.Machine

/-! ### Encoding -/

/-- Decoding the word of a well-formed instruction gives the instruction, under every legal choice of the register and
mode codes and either microprogram; a second mnemonic gives its core instruction (log 31). -/
def Obligations.DecodeOfEncode : Prop :=
  ∀ (c : Config) (i : Instr), c.wf = true → i.wf c = true → decode c (encode c i) = .ok i.canonical

/-- 30_encoding.md R129: exactly the listed words are no instruction, whatever the register and mode codes; and the
fourteen codes marked (&) are none under microprogram 1.0, where the source is silent (R131): that is the spec's
decision D18, a DESIGN CHOICE (log 15). -/
def Obligations.UnassignedWordsAreListed : Prop :=
  ∀ (c : Config) (w : Word),
    (decodeAssigned c w = none ↔ unassignedWord w = true) ∧
    (unassignedWord w = true → decode c w = .error .unassigned) ∧
    (∀ i, decodeAssigned c w = some i → i.isAmpersand = true → c.ucode = .v10 →
      decode c w = .error .notInMicroprogram10)

/-- 30_encoding.md R130: a long-word operand is refused unless it is register direct RA, RC or RE, and no other operand
is refused. -/
def Obligations.LongOperandsMustBePairs : Prop :=
  ∀ (c : Config) (w : Word) (i : Instr), decodeAssigned c w = some i → i.inVersion c = true →
    (∀ p, i.shape = .long p →
      (p ∈ [Operand.direct .ra, .direct .rc, .direct .re] → decode c w = .ok i) ∧
      (p ∉ [Operand.direct .ra, .direct .rc, .direct .re] → decode c w = .error .longOperand)) ∧
    ((∀ p, i.shape ≠ .long p) → decode c w = .ok i)

/-- 30_encoding.md R132: bit 7 of ERC, CFO, CFZ and CCC, bits 7-4 of CNM and bits 4-2 of the ASTROM M forms take no part
in decoding. -/
def Obligations.DontCareBitsAreIgnored : Prop :=
  ∀ c : Config,
    (∀ (op : BitVec 8) (b : BitVec 1) (k : BitVec 7), op ∈ [0x7A#8, 0x7B#8, 0x7C#8, 0x7D#8] →
      decode c (op ++ b ++ k) = decode c (op ++ 0#1 ++ k)) ∧
    (∀ (x l : BitVec 4), decode c (0x7E#8 ++ x ++ l) = decode c (0x7E#8 ++ 0#4 ++ l)) ∧
    (∀ (sub : BitVec 4) (a b : BitVec 2) (x : BitVec 3),
      decode c (1#5 ++ sub ++ a ++ x ++ b) = decode c (1#5 ++ sub ++ a ++ 0#3 ++ b))

/-- Words written out from the encoding tables of 30_encoding.md decode to their instructions; their operation codes are
the tables' own, their operand forms rest on the default `REG_CODE` and `MODE_CODE` (the spec's decisions D1 and D2;
log 1). -/
def Obligations.SomeWordsDecode : Prop :=
  decode defaultConfig 0x90EF = .ok (.add .immediate .absolute) ∧
  decode defaultConfig 0xCCA7 = .ok (.jsb (.direct .rf) .immediate) ∧
  decode defaultConfig 0x8605 = .ok (.ret (.direct .rf)) ∧
  decode defaultConfig 0x8240 = .ok (.rdcl (.direct .ra)) ∧
  decode defaultConfig 0x801A = .ok (.trapn 2) ∧
  decode defaultConfig 0x72FE = .ok (.dcz 0xFE) ∧
  decode defaultConfig 0x7EF5 = .ok (.cnm 5) ∧
  decode defaultConfig 0x09BE = .ok (.smim .r1 .r2) ∧
  decode defaultConfig 0x8EB6 = .ok (.cri .r1 .autoinc) ∧
  decode defaultConfig 0x8201 = .error .longOperand ∧
  decode defaultConfig 0x4800 = .error .unassigned

/-! ### Memory and the bus -/

/-- 20_memory.md R70: a byte read after a byte write gives the byte written at its address and the old byte elsewhere.
R71: the word at even address a is `mem[a+1] ++ mem[a]`; a byte at an even address is bits 7-0 of its word, a byte at an
odd address bits 15-8; and a word write stores so. -/
def Obligations.MemoryBytesAndWords : Prop :=
  (∀ (m : Memory) (a b : Nat) (x : Byte), m.wf = true → a < 65536 →
    (m.writeByte a x).readByte b = if b = a then x else m.readByte b) ∧
  (∀ (m : Memory) (a v : Word), m.wf = true → a.getLsbD 0 = false →
    m.read true a = m.readByte (a.toNat + 1) ++ m.readByte a.toNat ∧
    m.read false a = ((m.read true a).extractLsb' 0 8).setWidth 16 ∧
    m.read false (a + 1) = ((m.read true a).extractLsb' 8 8).setWidth 16 ∧
    (m.write true a v).readByte a.toNat = v.extractLsb' 0 8 ∧
    (m.write true a v).readByte (a.toNat + 1) = v.extractLsb' 8 8 ∧
    (∀ b, b ≠ a.toNat → b ≠ a.toNat + 1 → (m.write true a v).readByte b = m.readByte b))

/-- The canonical form of memory is faithful: two canonical memories that read alike are equal (log 26). -/
def Obligations.CanonicalMemoriesAreEqual : Prop :=
  ∀ m k : Memory, m.wf = true → k.wf = true → (∀ a, a < 65536 → m.readByte a = k.readByte a) → m = k

/-- Relocation as 20_memory.md R78 and R79 describe it, with the numbers of R79; the carry out of the sum is dropped
(the spec's decision D6; log 5). -/
def Obligations.RelocationAddsBase : Prop :=
  (∀ (base : BitVec 4) (a : Word),
    (0xF800 ≤ a.toNat → relocate base a = a) ∧
    (relocate 0 a = a) ∧
    (a.toNat < 0xF800 → (relocate base a).toNat = ((a.toNat / 4096 + base.toNat) % 16) * 4096 + a.toNat % 4096) ∧
    (relocate base a).getLsbD 0 = a.getLsbD 0) ∧
  relocate 5 0x2000 = 0x7000 ∧ relocate 5 0x2ABC = 0x7ABC ∧ relocate 5 0xFF02 = 0xFF02

/-- One program-space access: the odd-address test comes first and makes no bus cycle, then the timeout, where nothing
answers an access of this address, width and direction, then parity on a read; else the slave is read or written
(20_memory.md R74, R82 to R85, R95; the order is the spec's decision D13, log 10; what answers is log 28, a write to
read-only memory log 27, what is noted of a store log 7). That no ADMP edit is to come is log 13, the carry-free base
sum the spec's decision D6 (log 5), the count of free values log 33. -/
def Obligations.AccessChecksInOrder : Prop :=
  ∀ (s : State) (wide : Bool) (a v : Word),
    ((wide && a.getLsbD 0) = true →
      memRead wide a s = .error (.trap .oddAddress) s ∧ memWrite wide a v s = .error (.trap .oddAddress) s) ∧
    ((wide && a.getLsbD 0) = false → s.admp = [] →
      (Config.answers s.cfg false wide (s.reloc a) = none → memRead wide a s = .error (.trap .busTimeout) s) ∧
      (Config.answers s.cfg true wide (s.reloc a) = none → memWrite wide a v s = .error (.trap .busTimeout) s) ∧
      (Config.answers s.cfg false wide (s.reloc a) = some .ram ∨
          Config.answers s.cfg false wide (s.reloc a) = some .rom →
        memRead wide a s = if (⟨s.reloc a, wide⟩ : BusAccess) ∈ s.cfg.badParity then .error (.trap .parity) s
          else .ok (s.mem.read wide (s.reloc a)) s) ∧
      (Config.answers s.cfg true wide (s.reloc a) = some .ram →
        memWrite wide a v s = .ok () { s with
          mem := s.mem.write wide (s.reloc a) v, stored := s.stored ++ s.cellsAt wide (s.reloc a) }) ∧
      (Config.answers s.cfg true wide (s.reloc a) = some .rom →
        memWrite wide a v s = .error (.refuse .readOnlyWrite) s) ∧
      (Config.answers s.cfg false wide (s.reloc a) = some .device →
        ∃ x t, t = { s with events := .devRead (s.reloc a) wide :: s.events, freeCount := s.freeCount + 1 } ∧
          (wide = false → x.toNat < 256) ∧
          memRead wide a s = if (⟨s.reloc a, wide⟩ : BusAccess) ∈ s.cfg.badParity then .error (.trap .parity) t
            else .ok x t) ∧
      (Config.answers s.cfg true wide (s.reloc a) = some .device →
        memWrite wide a v s = .ok () { s with
          events := .devWrite (s.reloc a) wide (if wide then v else v &&& 0x00FF) :: s.events })) ∧
    (∀ (write : Bool) (k : SlaveKind), Config.answers s.cfg write wide a = some k ↔
      Config.slaveAt s.cfg a.toNat = some k ∧
        (⟨a, wide⟩ : BusAccess) ∉ (if write then s.cfg.silentWrites else s.cfg.silentReads))

/-- 60_exceptions.md R442 and 20_memory.md R80: a program-stack access raises the stack-limit trap exactly where its
address is above 0xF7FF or below LP, and then nothing has changed. 20_memory.md R81: a system-stack access outside the
limits, at an odd address, or with a fault on the bus, never raises a trap: it is abandoned with HALT, and what was done
before stays done (the spec's decision D15; log 12). -/
def Obligations.StackLimits : Prop :=
  ∀ (s t : State) (own wide : Bool) (a v : Word),
    (pstackRead wide a s = .error (.trap .stackLimit) t ↔ (0xF7FF < a.toNat ∨ a.toNat < s.lp.toNat) ∧ t = s) ∧
    (pstackWrite wide a v s = .error (.trap .stackLimit) t ↔ (0xF7FF < a.toNat ∨ a.toNat < s.lp.toNat) ∧ t = s) ∧
    ((0xF7FF < a.toNat ∨ a.toNat < s.lp.toNat ∨ a.getLsbD 0 = true) →
      sstackRead a s = .error .halt s ∧ sstackWrite own a v s = .error .halt s) ∧
    (∀ e : Trap, sstackRead a s ≠ .error (.trap e) t ∧ sstackWrite own a v s ≠ .error (.trap e) t) ∧
    (∀ e : Trap, a.toNat ≤ 0xF7FF → s.lp.toNat ≤ a.toNat → a.getLsbD 0 = false →
      (busRead true a s = .error (.trap e) t → sstackRead a s = .error .halt t) ∧
      (busWrite own true a v s = .error (.trap e) t → sstackWrite own a v s = .error .halt t))

/-- With an undisturbed bus and memory at the address, a stack access and a read of the instruction stream are plain and
change nothing else but what is noted of the program's own stores (log 7; the stack is not relocated: 20_memory.md R80,
R81); a fetch gives the word at PC and moves PC by two (30_encoding.md R112). That the instruction stream keeps the
program base for an exempt instruction too is log 6. -/
def Obligations.StackAndStreamAccesses : Prop :=
  ∀ (s : State) (own wide : Bool) (a v : Word), s.calm →
    ((wide && a.getLsbD 0) = false → s.memoryAt (s.relocStream a) = true →
      streamRead wide a s = .ok (s.mem.read wide (s.relocStream a)) s) ∧
    (a.toNat ≤ 0xF7FF → s.lp.toNat ≤ a.toNat →
      (s.memoryAt a = true → pstackRead wide a s = .ok (s.mem.read wide a) s ∧
        (a.getLsbD 0 = false → sstackRead a s = .ok (s.mem.read true a) s)) ∧
      (s.ramAt a = true →
        pstackWrite wide a v s = .ok () { s with
          mem := s.mem.write wide a v, stored := s.stored ++ s.cellsAt wide a } ∧
        (a.getLsbD 0 = false → sstackWrite own a v s = .ok () { s with
          mem := s.mem.write true a v, stored := if own then s.stored ++ s.cellsAt true a else s.stored }))) ∧
    (s.pc.getLsbD 0 = false → s.memoryAt (s.relocStream s.pc) = true →
      fetch16 s = .ok (s.mem.read true (s.relocStream s.pc)) (s.setPc (s.pc + 2)))

/-! ### Registers and operands -/

/-- 00_scope.md R11: writes to SP, SPS and PC force bit 0 to 0, writes to MK force bit 15 to 0; the other bits are
stored (10_state.md R26, R27, R28, R32). -/
def Obligations.StuckBits : Prop :=
  ∀ (s : State) (v : Word) (k : Nat),
    (s.setSp v).sp.getLsbD k = (v.getLsbD k && decide (k ≠ 0)) ∧
    (s.setSps v).sps.getLsbD k = (v.getLsbD k && decide (k ≠ 0)) ∧
    (s.setPc v).pc.getLsbD k = (v.getLsbD k && decide (k ≠ 0)) ∧
    (s.setMk v).imk.getLsbD k = (v.getLsbD k && decide (k ≠ 15)) ∧
    (s.setLp v).lp = v ∧ (s.setPsw v).psw = v

/-- 10_state.md R22, R23: a byte read of a general register or of SP gives bits 7-0, a byte write replaces bits 7-0
only; a word read and a word write are of the whole register; the other registers stay. -/
def Obligations.RegisterBytesAndWords : Prop :=
  ∀ (s : State) (r q : GReg) (b : Byte) (w : Word),
    readLoc 8 (.reg r) s = .ok ((s.getG r).extractLsb' 0 8) s ∧
    readLoc 16 (.reg r) s = .ok (s.getG r) s ∧
    writeLoc 8 (.reg r) b s = .ok () (s.setG r ((s.getG r).extractLsb' 8 8 ++ b)) ∧
    writeLoc 16 (.reg r) w s = .ok () (s.setG r w) ∧
    (s.setG r w).getG r = w ∧ (q ≠ r → (s.setG r w).getG q = s.getG q) ∧
    readLoc 8 .spReg s = .ok (s.sp.extractLsb' 0 8) s ∧ readLoc 16 .spReg s = .ok s.sp s ∧
    writeLoc 8 .spReg b s = .ok () { s with sp := (s.sp.extractLsb' 8 8 ++ b) &&& 0xFFFE } ∧
    writeLoc 16 .spReg w s = .ok () { s with sp := w &&& 0xFFFE }

/-- 10_state.md R24: the pairs are RA and RB, RC and RD, RE and RF, named by the first; the named register holds bits
31-16 where `LONG_HIGH_IS_DECLARED` (the spec's decision D3; log 3), and naming RB, RD or RF raises the
invalid-operation-code trap. -/
def Obligations.RegisterPairs : Prop :=
  ∀ (s : State) (v : Long) (x y : GReg) (p : Pair),
    (x, y, p) ∈ [(GReg.ra, GReg.rb, Pair.ab), (.rc, .rd, .cd), (.re, .rf, .ef)] →
    locateLong (.direct x) s = .ok p s ∧
    locateLong (.direct y) s = .error (.trap .invalidOpcode) s ∧
    (s.cfg.longHighIsDeclared = true → readPair p s = .ok (s.getG x ++ s.getG y) s) ∧
    (s.cfg.longHighIsDeclared = false → readPair p s = .ok (s.getG y ++ s.getG x) s) ∧
    (∃ t, writePair p v s = .ok () t ∧ t.getPair p = v ∧ ∀ z, z ≠ x → z ≠ y → t.getG z = s.getG z)

/-- 40_addressing_modes.md R151: the location and the side effect of each of the twelve modes, and the long-word case;
the base of the relative modes is the one of `REL_PC_BIAS` (the spec's decision D4; log 4), and that SP is updated
before the access is D10 (log 8). `d` is the extension word, `t` the state after its fetch, `p` the pointer, `u` the
state after its read. -/
def Obligations.LocateModes : Prop :=
  ∀ (s : State) (r : GReg),
    locate (.direct r) s = .ok (.reg r) s ∧
    locate (.indirect r) s = .ok (.mem (s.getG r)) s ∧
    locate .spDirect s = .ok .spReg s ∧
    locate .autodec s = .ok (.pstk ((s.sp - 2) &&& 0xFFFE)) (s.setSp (s.sp - 2)) ∧
    locate .autoinc s = .ok (.pstk s.sp) (s.setSp (s.sp + 2)) ∧
    locate .stackTop s = .ok (.pstk s.sp) s ∧
    locate .immediate s = .ok (.imm s.pc) (s.setPc (s.pc + 2)) ∧
    (∀ d t, fetch16 s = .ok d t →
      locate (.indexed r) s = .ok (.mem (t.getG r + d)) t ∧
      locate .absolute s = .ok (.mem d) t ∧
      locate .relative s = .ok (.mem (s.pc + (if s.cfg.relPcBiasTwo then 2 else 0) + d)) t ∧
      (∀ p u, memRead true (t.getG r + d) t = .ok p u → locate (.indexedIndirect r) s = .ok (.mem p) u) ∧
      (∀ e u, memRead true (t.getG r + d) t = .error e u → locate (.indexedIndirect r) s = .error e u) ∧
      (∀ p u, memRead true (s.pc + (if s.cfg.relPcBiasTwo then 2 else 0) + d) t = .ok p u →
        locate .relativeIndirect s = .ok (.mem p) u) ∧
      (∀ e u, memRead true (s.pc + (if s.cfg.relPcBiasTwo then 2 else 0) + d) t = .error e u →
        locate .relativeIndirect s = .error e u)) ∧
    (∀ e t, fetch16 s = .error e t →
      ∀ o, o ∈ [Operand.indexed r, .indexedIndirect r, .absolute, .relative, .relativeIndirect] →
        locate o s = .error e t) ∧
    (∀ o, o ∉ [Operand.direct .ra, .direct .rc, .direct .re] → locateLong o s = .error (.trap .invalidOpcode) s)

/-! ### Results and flags -/

/-- 00_scope.md R15, `AddFlags`: the sum is exact modulo 2^N, the carry is bit N of the exact sum, and the overflow is
that of the signed sum. -/
def Obligations.AddFlagsMeaning : Prop :=
  ∀ (n : Nat) (a b : BitVec n) (cin : Bool), n = 8 ∨ n = 16 →
    (addSum a b cin).toNat = (a.toNat + b.toNat + cin.toNat) % 2 ^ n ∧
    (carryOut a b cin).toNat = (a.toNat + b.toNat + cin.toNat) / 2 ^ n ∧
    (addOverflow a b cin = true ↔
      (a.toInt + b.toInt + cin.toNat < -2 ^ (n - 1) ∨ 2 ^ (n - 1) ≤ a.toInt + b.toInt + cin.toNat))

/-- 41_two_operand.md R217: ADD, DAC, SUB, DSB and CMP give the exact sum or difference modulo 2^N; V is its signed
overflow; C is the carry of a sum and the borrow of a difference; Z and S are by the result; bits 15-4 of the PSW stay.
SUB and DSB subtract the source from the destination, CMP the destination from the source. -/
def Obligations.ArithmeticResultsAndFlags : Prop :=
  ∀ (n : Nat) (s d : BitVec n) (p : Word), n = 8 ∨ n = 16 →
    let c : Nat := (pswC p).toNat
    let row (x : BitVec n × Word) (r : BitVec n) (carry : Bool) (exact : Int) : Prop :=
      x.1 = r ∧ pswC x.2 = carry ∧ (pswV x.2 = true ↔ exact < -2 ^ (n - 1) ∨ 2 ^ (n - 1) ≤ exact) ∧
      pswZ x.2 = decide (r = 0) ∧ pswS x.2 = r.msb ∧ x.2.extractLsb' 4 12 = p.extractLsb' 4 12
    row (aluAdd s d p) (s + d) (decide (2 ^ n ≤ s.toNat + d.toNat)) (s.toInt + d.toInt) ∧
    row (aluDac s d p) (s + d + BitVec.ofNat n c) (decide (2 ^ n ≤ s.toNat + d.toNat + c)) (s.toInt + d.toInt + c) ∧
    row (aluSub s d p) (d - s) (decide (d.toNat < s.toNat)) (d.toInt - s.toInt) ∧
    row (aluDsb s d p) (d - s - BitVec.ofNat n c) (decide (d.toNat < s.toNat + c)) (d.toInt - s.toInt - c) ∧
    row (aluCmp s d p) (s - d) (decide (s.toNat < d.toNat)) (s.toInt - d.toInt)

/-- 46_parameter.md R356 to R363: after CMP the branches compare source with destination, signed and unsigned; after SUB
they compare destination with source. The page of DGT is lost; its condition is the spec's decision D22 (log 18). -/
def Obligations.BranchesAfterCompare : Prop :=
  ∀ (n : Nat) (s d : BitVec n) (p : Word), n = 8 ∨ n = 16 →
    (let q := (aluCmp s d p).2
     condGe q = decide (d.toInt ≤ s.toInt) ∧ condLt q = decide (s.toInt < d.toInt) ∧
     condGt q = decide (d.toInt < s.toInt) ∧ condLe q = decide (s.toInt ≤ d.toInt) ∧
     condHi q = decide (d.toNat < s.toNat) ∧ condLs q = decide (s.toNat ≤ d.toNat) ∧
     (!pswC q) = decide (d.toNat ≤ s.toNat) ∧ pswC q = decide (s.toNat < d.toNat) ∧ pswZ q = decide (s = d)) ∧
    (let q := (aluSub s d p).2
     condGe q = decide (s.toInt ≤ d.toInt) ∧ condLt q = decide (d.toInt < s.toInt) ∧
     condGt q = decide (s.toInt < d.toInt) ∧ condLe q = decide (d.toInt ≤ s.toInt) ∧
     condHi q = decide (s.toNat < d.toNat) ∧ condLs q = decide (d.toNat ≤ s.toNat) ∧
     (!pswC q) = decide (s.toNat ≤ d.toNat) ∧ pswC q = decide (d.toNat < s.toNat) ∧ pswZ q = decide (s = d))

/-- 42_one_operand_arith.md R231 to R235, R239 to R241: the results of the one-operand arithmetic and their C and V in
words about the operand; Z and S are by the result, but for ABS by the operand; bits 15-4 of the PSW stay. The pages of
DCR and SB are lost: what they do is the spec's decision D22 (log 18). -/
def Obligations.OneOperandArithmetic : Prop :=
  ∀ (n : Nat) (d : BitVec n) (p : Word), n = 8 ∨ n = 16 →
    let minN : BitVec n := BitVec.ofNat n (2 ^ (n - 1))
    let maxN : BitVec n := BitVec.ofNat n (2 ^ (n - 1) - 1)
    let row (x : BitVec n × Word) (r : BitVec n) (c v : Bool) : Prop :=
      x.1 = r ∧ pswC x.2 = c ∧ pswV x.2 = v ∧ pswZ x.2 = decide (r = 0) ∧ pswS x.2 = r.msb ∧
      x.2.extractLsb' 4 12 = p.extractLsb' 4 12
    row (aluNeg d p) (-d) (decide (d ≠ 0)) (decide (d = minN)) ∧
    row (aluInc d p) (d + 1) (pswC p) (decide (d = maxN)) ∧
    row (aluDcr d p) (d - 1) (pswC p) (decide (d = minN)) ∧
    row (aluIct d p) (d + 2) (pswC p) (decide (d = maxN ∨ d = maxN - 1)) ∧
    row (aluDct d p) (d - 2) (pswC p) (decide (d = minN ∨ d = minN + 1)) ∧
    row (aluAdc d p) (d + BitVec.ofNat n (pswC p).toNat) (decide (d = BitVec.allOnes n) && pswC p)
      (decide (d = maxN) && pswC p) ∧
    row (aluSb d p) (d - BitVec.ofNat n (pswC p).toNat) (decide (d = 0) && pswC p) (decide (d = minN) && pswC p) ∧
    ((aluAbs d p).1 = (if d.toInt < 0 then -d else d) ∧ pswC (aluAbs d p).2 = false ∧
      pswV (aluAbs d p).2 = decide (d = minN) ∧ pswZ (aluAbs d p).2 = decide (d = 0) ∧
      pswS (aluAbs d p).2 = decide (d = minN) ∧ (aluAbs d p).2.extractLsb' 4 12 = p.extractLsb' 4 12)

/-- 43_shift_rotate.md R262 to R279, bit by bit: every bit moves one place, the bit that enters and the new C are those
of the rule; an instruction gives the shifted value, that C, V = 0, S by the result and Z by the result (R260), but Z of
a long shift by its high word only (R261); bits 15-4 of the PSW stay. The pages of SLE, SEC and SDCL are lost: what they
do is the spec's decision D22 (log 18). -/
def Obligations.ShiftsBitByBit : Prop :=
  (∀ (n : Nat) (d : BitVec n) (c : Bool) (k : Nat), n = 8 ∨ n = 16 ∨ n = 32 → k < n →
    (∀ f b e, (f, b, e) ∈ [((shSld : ShiftRule n), false, c), (shSdc, c, false), (shRdc, c, d.getLsbD 0),
        (shSad, d.getLsbD (n - 1), c), (shRtd, d.getLsbD 0, c)] →
      (f d c).1.getLsbD k = (if k = n - 1 then b else d.getLsbD (k + 1)) ∧ (f d c).2 = e) ∧
    (∀ f b e, (f, b, e) ∈ [((shSle : ShiftRule n), false, c), (shSec, false, d.getLsbD (n - 1)),
        (shRec, c, d.getLsbD (n - 1)), (shRte, d.getLsbD (n - 1), c)] →
      (f d c).1.getLsbD k = (if k = 0 then b else d.getLsbD (k - 1)) ∧ (f d c).2 = e)) ∧
  (∀ (n : Nat) (f : ShiftRule n) (d : BitVec n) (p : Word), n = 8 ∨ n = 16 →
    (aluShift f d p).1 = (f d (pswC p)).1 ∧ pswC (aluShift f d p).2 = (f d (pswC p)).2 ∧
    pswV (aluShift f d p).2 = false ∧ pswZ (aluShift f d p).2 = decide ((f d (pswC p)).1 = 0) ∧
    pswS (aluShift f d p).2 = (f d (pswC p)).1.getLsbD (n - 1) ∧
    (aluShift f d p).2.extractLsb' 4 12 = p.extractLsb' 4 12) ∧
  (∀ (f : ShiftRule 32) (d : Long) (p : Word),
    (aluLongShift f d p).1 = (f d (pswC p)).1 ∧ pswC (aluLongShift f d p).2 = (f d (pswC p)).2 ∧
    pswV (aluLongShift f d p).2 = false ∧
    pswZ (aluLongShift f d p).2 = decide ((f d (pswC p)).1.toNat < 65536) ∧
    pswS (aluLongShift f d p).2 = (f d (pswC p)).1.getLsbD 31 ∧
    (aluLongShift f d p).2.extractLsb' 4 12 = p.extractLsb' 4 12)

/-! ### What each instruction does when its operand accesses succeed -/

/-- 41_two_operand.md R201 to R204, R206 to R210: source read, destination located and read, the result written there,
then the flags; R205, R211, R212: CMP, COC, CZC read both operands and write the flags only. What the logic instructions
compute, bit by bit: C stays, V is 0, Z and S are by the result, bits 15-4 of the PSW stay (R206). -/
def Obligations.TwoOperandInstructions : Prop :=
  (∀ q ∈ wordTwo, ∀ f d s sv s1 ld s2 dv s3 t,
    readOperand 16 f s = .ok sv s1 → locate d s1 = .ok ld s2 → readLoc 16 ld s2 = .ok dv s3 →
    writeLoc 16 ld (q.2 sv dv s3.psw).1 s3 = .ok () t →
    exec (q.1 f d) s = .next (t.setPsw (q.2 sv dv s3.psw).2)) ∧
  (∀ q ∈ byteTwo, ∀ f d s sv s1 ld s2 dv s3 t,
    readOperand 8 f s = .ok sv s1 → locate d s1 = .ok ld s2 → readLoc 8 ld s2 = .ok dv s3 →
    writeLoc 8 ld (q.2 sv dv s3.psw).1 s3 = .ok () t →
    exec (q.1 f d) s = .next (t.setPsw (q.2 sv dv s3.psw).2)) ∧
  (∀ q ∈ wordCompare, ∀ f d s sv s1 dv t, readOperand 16 f s = .ok sv s1 → readOperand 16 d s1 = .ok dv t →
    exec (q.1 f d) s = .next (t.setPsw (q.2 sv dv t.psw).2)) ∧
  (∀ q ∈ byteCompare, ∀ f d s sv s1 dv t, readOperand 8 f s = .ok sv s1 → readOperand 8 d s1 = .ok dv t →
    exec (q.1 f d) s = .next (t.setPsw (q.2 sv dv t.psw).2)) ∧
  (∀ (n : Nat) (s d : BitVec n) (p : Word), n = 8 ∨ n = 16 →
    let row (x : BitVec n × Word) (bit : Bool → Bool → Bool) : Prop :=
      (∀ k, k < n → x.1.getLsbD k = bit (s.getLsbD k) (d.getLsbD k)) ∧ pswC x.2 = pswC p ∧ pswV x.2 = false ∧
      pswZ x.2 = decide (x.1 = 0) ∧ pswS x.2 = x.1.getLsbD (n - 1) ∧ x.2.extractLsb' 4 12 = p.extractLsb' 4 12
    row (aluAnd s d p) (fun a b => a && b) ∧ row (aluOr s d p) (fun a b => a || b) ∧
    row (aluMsk s d p) (fun a b => !a && b) ∧ row (aluXor s d p) (fun a b => a != b) ∧
    row (aluXnr s d p) (fun a b => a == b) ∧ row (aluCoc s d p) (fun a b => a && !b) ∧
    row (aluCzc s d p) (fun a b => b && !a))

/-- 40_addressing_modes.md R171 and 60_exceptions.md R451: where an operand access raises a trap (a source or
destination located or read, a destination written, the push of JSB, the pop of RET, a push of SRG or a pop of CRG
outside the stack limits), the instruction ends in that trap, what was done before stays done, and no flag has changed
(the spec's decision D10; log 8). A long-word operand that is no register pair ends in the invalid-operation-code trap
at once (R166). With room for the entry, the stacked PC is the PC at that moment, where the configuration does not leave
it open (log 8), and `bp_armed` is cleared (60_exceptions.md R469; the spec's decision D12; log 9). The order of the two
writes of EXC is the spec's decision D21 (log 17; 41_two_operand.md R214); the free bits 7-1 of the byte SFGMB writes
with UPFOK = 0 are D23 (logs 19 and 33; 44_one_operand_control.md R311); what DCR, SB, STZ, SLP, DMI, SLE, SEC, SDCL and
ABPF do at all is D22 (log 18). The note of stores is log 7, the canonical memory log 26. -/
def Obligations.OperandFaultsTrap : Prop :=
  let ends (i : Instr) (s : State) (e : Trap) (u : State) : Prop := exec i s = raiseInInstr e u ∧ u.psw = s.psw
  -- the first operand read
  (∀ c ∈ wordTwo.map (·.1) ++ wordCompare.map (·.1) ++ [Instr.mov, .exc, .djz, .jsb], ∀ f d s e u,
    readOperand 16 f s = .error (.trap e) u → ends (c f d) s e u) ∧
  (∀ c ∈ byteTwo.map (·.1) ++ byteCompare.map (·.1) ++ [Instr.movb, .excb], ∀ f d s e u,
    readOperand 8 f s = .error (.trap e) u → ends (c f d) s e u) ∧
  (∀ c ∈ wordOne.map (·.1) ++ [Instr.abs, .cpz, .jmp, .clp, .cmk, .dmi, .mki, .csps, .ret], ∀ d s e u,
    readOperand 16 d s = .error (.trap e) u → ends (c d) s e u) ∧
  (∀ c ∈ byteOne.map (·.1) ++ [Instr.absb, .cpzb], ∀ d s e u,
    readOperand 8 d s = .error (.trap e) u → ends (c d) s e u) ∧
  (∀ c ∈ astromIntP.map (·.1) ++ [Instr.ipfp, .cri], ∀ a p s e u,
    readOperand 16 p s = .error (.trap e) u → ends (c a p) s e u) ∧
  -- the second operand read
  (∀ c ∈ wordTwo.map (·.1) ++ wordCompare.map (·.1) ++ [Instr.exc, .djz, .jsb], ∀ f d s sv s1 e u,
    readOperand 16 f s = .ok sv s1 → readOperand 16 d s1 = .error (.trap e) u → ends (c f d) s e u) ∧
  (∀ c ∈ byteTwo.map (·.1) ++ byteCompare.map (·.1) ++ [Instr.excb], ∀ f d s sv s1 e u,
    readOperand 8 f s = .ok sv s1 → readOperand 8 d s1 = .error (.trap e) u → ends (c f d) s e u) ∧
  -- a destination located that is not read
  (∀ f d s sv s1 e u, readOperand 16 f s = .ok sv s1 → locate d s1 = .error (.trap e) u → ends (.mov f d) s e u) ∧
  (∀ f d s sv s1 e u, readOperand 8 f s = .ok sv s1 → locate d s1 = .error (.trap e) u → ends (.movb f d) s e u) ∧
  (∀ d s e u, locate d s = .error (.trap e) u →
    (∀ c ∈ wordStore.map (·.1) ++ byteStore.map (·.1) ++ [Instr.slp, .smk, .ssps, .sfgmb], ends (c d) s e u) ∧
    (∀ a, ends (.azi a d) s e u)) ∧
  -- a destination written
  (∀ q ∈ wordTwo, ∀ f d s sv s1 ld s2 dv s3 e u, readOperand 16 f s = .ok sv s1 → locate d s1 = .ok ld s2 →
    readLoc 16 ld s2 = .ok dv s3 → writeLoc 16 ld (q.2 sv dv s3.psw).1 s3 = .error (.trap e) u →
    ends (q.1 f d) s e u) ∧
  (∀ q ∈ byteTwo, ∀ f d s sv s1 ld s2 dv s3 e u, readOperand 8 f s = .ok sv s1 → locate d s1 = .ok ld s2 →
    readLoc 8 ld s2 = .ok dv s3 → writeLoc 8 ld (q.2 sv dv s3.psw).1 s3 = .error (.trap e) u →
    ends (q.1 f d) s e u) ∧
  (∀ f d s sv s1 ld s2 e u, readOperand 16 f s = .ok sv s1 → locate d s1 = .ok ld s2 →
    writeLoc 16 ld sv s2 = .error (.trap e) u → ends (.mov f d) s e u) ∧
  (∀ f d s sv s1 ld s2 e u, readOperand 8 f s = .ok sv s1 → locate d s1 = .ok ld s2 →
    writeLoc 8 ld sv s2 = .error (.trap e) u → ends (.movb f d) s e u) ∧
  (∀ f d s ls s1 sv s2 ld s3 dv s4 e u, locate f s = .ok ls s1 → readLoc 16 ls s1 = .ok sv s2 →
    locate d s2 = .ok ld s3 → readLoc 16 ld s3 = .ok dv s4 →
    (writeLoc 16 ls dv s4 = .error (.trap e) u → ends (.exc f d) s e u) ∧
    (∀ s5, writeLoc 16 ls dv s4 = .ok () s5 → writeLoc 16 ld sv s5 = .error (.trap e) u → ends (.exc f d) s e u)) ∧
  (∀ f d s ls s1 sv s2 ld s3 dv s4 e u, locate f s = .ok ls s1 → readLoc 8 ls s1 = .ok sv s2 →
    locate d s2 = .ok ld s3 → readLoc 8 ld s3 = .ok dv s4 →
    (writeLoc 8 ls dv s4 = .error (.trap e) u → ends (.excb f d) s e u) ∧
    (∀ s5, writeLoc 8 ls dv s4 = .ok () s5 → writeLoc 8 ld sv s5 = .error (.trap e) u → ends (.excb f d) s e u)) ∧
  (∀ f d s ls s1 sv s2 dv s3 e u, locate f s = .ok ls s1 → readLoc 16 ls s1 = .ok sv s2 →
    readOperand 16 d s2 = .ok dv s3 →
    (writeLoc 16 ls (sv - 1) s3 = .error (.trap e) u → ends (.djz f d) s e u) ∧
    (writeLoc 16 ls s3.pc s3 = .error (.trap e) u → ends (.jsb f d) s e u) ∧
    (∀ s4, writeLoc 16 ls s3.pc s3 = .ok () s4 →
      pstackWrite true ((s4.sp - 2) &&& 0xFFFE) sv (s4.setSp (s4.sp - 2)) = .error (.trap e) u →
      ends (.jsb f d) s e u)) ∧
  (∀ q ∈ wordOne, ∀ d s ld s1 dv s2 e u, locate d s = .ok ld s1 → readLoc 16 ld s1 = .ok dv s2 →
    writeLoc 16 ld (q.2 dv s2.psw).1 s2 = .error (.trap e) u → ends (q.1 d) s e u) ∧
  (∀ q ∈ byteOne, ∀ d s ld s1 dv s2 e u, locate d s = .ok ld s1 → readLoc 8 ld s1 = .ok dv s2 →
    writeLoc 8 ld (q.2 dv s2.psw).1 s2 = .error (.trap e) u → ends (q.1 d) s e u) ∧
  (∀ d s ld s1 dv s2 e u, locate d s = .ok ld s1 → readLoc 16 ld s1 = .ok dv s2 → dv.msb = true →
    writeLoc 16 ld (-dv) s2 = .error (.trap e) u → ends (.abs d) s e u) ∧
  (∀ d s ld s1 dv s2 e u, locate d s = .ok ld s1 → readLoc 8 ld s1 = .ok dv s2 → dv.msb = true →
    writeLoc 8 ld (-dv) s2 = .error (.trap e) u → ends (.absb d) s e u) ∧
  (∀ q ∈ wordStore, ∀ d s ld s1 e u, locate d s = .ok ld s1 →
    writeLoc 16 ld (q.2 s1.psw).1 s1 = .error (.trap e) u → ends (q.1 d) s e u) ∧
  (∀ q ∈ byteStore, ∀ d s ld s1 e u, locate d s = .ok ld s1 →
    writeLoc 8 ld (q.2 s1.psw).1 s1 = .error (.trap e) u → ends (q.1 d) s e u) ∧
  (∀ d s ld s1 e u, locate d s = .ok ld s1 →
    (writeLoc 16 ld s1.lp s1 = .error (.trap e) u → ends (.slp d) s e u) ∧
    (writeLoc 16 ld s1.imk s1 = .error (.trap e) u → ends (.smk d) s e u) ∧
    (writeLoc 16 ld s1.sps s1 = .error (.trap e) u → ends (.ssps d) s e u) ∧
    (s.upfok = true → writeLoc 8 ld (codesByte s1.mf true) s1 = .error (.trap e) u → ends (.sfgmb d) s e u) ∧
    (s.upfok = false → writeLoc 8 ld (Config.sfgmbAbsent s1.freeCount ++ 0#1)
      { s1 with freeCount := s1.freeCount + 1 } = .error (.trap e) u → ends (.sfgmb d) s e u) ∧
    (∀ a, s.upfok = true → writeLoc 16 ld ((s.getM a).extractLsb' 0 16) s1 = .error (.trap e) u →
      ends (.azi a d) s e u)) ∧
  (∀ d s ld s1 v s2 e u, locate d s = .ok ld s1 → readLoc 16 ld s1 = .ok v s2 →
    (pstackRead true s2.sp (s2.setPc v) = .error (.trap e) u → ends (.ret d) s e u) ∧
    (∀ w s3, pstackRead true s2.sp (s2.setPc v) = .ok w s3 → writeLoc 16 ld w s3 = .error (.trap e) u →
      ends (.ret d) s e u)) ∧
  -- SRG and CRG: the first k pushes or pops are inside the limits, the next is not
  (∀ (s : State) (k : Nat), k < 6 → s.calm → s.mem.wf = true → s.sp.getLsbD 0 = false →
    let a (j : Nat) : Word := s.sp - 2 - 2 * BitVec.ofNat 16 j
    (∀ j, j < k → s.lp.toNat ≤ (a j).toNat ∧ (a j).toNat ≤ 0xF7FF ∧ s.ramAt (a j) = true) →
    ((a k).toNat < s.lp.toNat ∨ 0xF7FF < (a k).toNat) →
    ∃ u, ends .srg s .stackLimit u ∧ u.sp = a k ∧
      (∀ j, j < k → u.mem.read true (a j) = [s.rf, s.re, s.rd, s.rc, s.rb, s.ra].getD j 0) ∧
      (∀ b, (∀ j, j < k → b ≠ (a j).toNat ∧ b ≠ (a j).toNat + 1) → u.mem.readByte b = s.mem.readByte b) ∧
      u = { s with sp := u.sp, mem := u.mem, stored := u.stored }) ∧
  (∀ (s : State) (k : Nat), k < 6 → s.calm → s.sp.getLsbD 0 = false →
    let a (j : Nat) : Word := s.sp + 2 * BitVec.ofNat 16 j
    (∀ j, j < k → s.lp.toNat ≤ (a j).toNat ∧ (a j).toNat ≤ 0xF7FF ∧ s.memoryAt (a j) = true) →
    ((a k).toNat < s.lp.toNat ∨ 0xF7FF < (a k).toNat) →
    ∃ u, ends .crg s .stackLimit u ∧ u.sp = a k ∧
      (∀ x ∈ [(0, GReg.ra), (1, .rb), (2, .rc), (3, .rd), (4, .re), (5, .rf)],
        u.getG x.2 = if x.1 < k then s.mem.read true (a x.1) else s.getG x.2) ∧
      u = { s with ra := u.ra, rb := u.rb, rc := u.rc, rd := u.rd, re := u.re, rf := u.rf, sp := u.sp }) ∧
  -- a long word that is no pair
  (∀ o s, pairOf o = none →
    (∀ q ∈ longShifts, exec (q.1 o) s = raiseInInstr .invalidOpcode s) ∧
    (∀ a, ∀ q ∈ astromFloatP, exec (q.1 a o) s = raiseInInstr .invalidOpcode s) ∧
    (∀ a, exec (.crpf a o) s = raiseInInstr .invalidOpcode s ∧ exec (.azpf a o) s = raiseInInstr .invalidOpcode s)) ∧
  -- the entry
  (∀ (s : State) (e : Trap), s.entryRoom (trapVector e) → (isAccessFault e && decide (e ∈ s.cfg.trapPcOpen)) = false →
    raiseInInstr e s = .next (entryState s.pc (trapVector e) { s with bpArmed := false }))

/-- 41_two_operand.md R213, R214: MOV writes the source to a destination it does not read; EXC reads both, then writes
the source location, then the destination, with Z and S from the original source (the spec's decision D21; log 17); V is
0, C stays. -/
def Obligations.MoveAndExchange : Prop :=
  ∀ f d s,
    (∀ sv s1 ld s2 t, readOperand 16 f s = .ok sv s1 → locate d s1 = .ok ld s2 → writeLoc 16 ld sv s2 = .ok () t →
      exec (.mov f d) s = .next (t.setPsw (withCVZS t.psw (pswC t.psw) false (decide (sv = 0)) sv.msb))) ∧
    (∀ sv s1 ld s2 t, readOperand 8 f s = .ok sv s1 → locate d s1 = .ok ld s2 → writeLoc 8 ld sv s2 = .ok () t →
      exec (.movb f d) s = .next (t.setPsw (withCVZS t.psw (pswC t.psw) false (decide (sv = 0)) sv.msb))) ∧
    (∀ ls s1 sv s2 ld s3 dv s4 s5 t, locate f s = .ok ls s1 → readLoc 16 ls s1 = .ok sv s2 →
      locate d s2 = .ok ld s3 → readLoc 16 ld s3 = .ok dv s4 → writeLoc 16 ls dv s4 = .ok () s5 →
      writeLoc 16 ld sv s5 = .ok () t →
      exec (.exc f d) s = .next (t.setPsw (withCVZS t.psw (pswC t.psw) false (decide (sv = 0)) sv.msb))) ∧
    (∀ ls s1 sv s2 ld s3 dv s4 s5 t, locate f s = .ok ls s1 → readLoc 8 ls s1 = .ok sv s2 →
      locate d s2 = .ok ld s3 → readLoc 8 ld s3 = .ok dv s4 → writeLoc 8 ls dv s4 = .ok () s5 →
      writeLoc 8 ld sv s5 = .ok () t →
      exec (.excb f d) s = .next (t.setPsw (withCVZS t.psw (pswC t.psw) false (decide (sv = 0)) sv.msb)))

/-- 41_two_operand.md R215: DJZ reads both operands, stores the source less one, sets V, Z and S, and goes to the value
of the destination, bit 0 dropped, unless the result is zero. -/
def Obligations.DjzInstruction : Prop :=
  ∀ f d s ls s1 sv s2 dv s3 t, locate f s = .ok ls s1 → readLoc 16 ls s1 = .ok sv s2 →
    readOperand 16 d s2 = .ok dv s3 → writeLoc 16 ls (sv - 1) s3 = .ok () t →
    ∃ u, exec (.djz f d) s = .next u ∧
      u.psw = withCVZS s3.psw (pswC s3.psw) (decide (sv = 0x8000)) (decide (sv = 1)) (sv - 1).msb ∧
      u.pc = (if sv = 1 then t.pc else dv &&& 0xFFFE) ∧
      u = { t with psw := u.psw, pc := u.pc }

/-- 41_two_operand.md R216: JSB puts the return address in the source operand, pushes its old content on the program
stack and goes to the value of the destination. 44_one_operand_control.md R301: RET loads PC with the operand and the
operand with the word popped from the program stack. -/
def Obligations.SubroutineInstructions : Prop :=
  (∀ f d s ls s1 tmp1 s2 tmp2 s3 s4 t, locate f s = .ok ls s1 → readLoc 16 ls s1 = .ok tmp1 s2 →
    readOperand 16 d s2 = .ok tmp2 s3 → writeLoc 16 ls s3.pc s3 = .ok () s4 →
    pstackWrite true ((s4.sp - 2) &&& 0xFFFE) tmp1 (s4.setSp (s4.sp - 2)) = .ok () t →
    exec (.jsb f d) s = .next (t.setPc tmp2)) ∧
  (∀ d s ld s1 v s2 w s3 t, locate d s = .ok ld s1 → readLoc 16 ld s1 = .ok v s2 →
    pstackRead true s2.sp (s2.setPc v) = .ok w s3 → writeLoc 16 ld w s3 = .ok () t →
    exec (.ret d) s = .next (t.setSp (t.sp + 2)))

/-- 42_one_operand_arith.md R230 to R236, R240, R241, R244 and 43_shift_rotate.md R260, R267 to R271, R276 to R279: the
operand located once, read, the result written there, then the flags; and what CMT and SWB compute, bit by bit, with
their flags (R236, R244). The pages of DCR, SB, SLE and SEC are lost: what they do is the spec's decision D22 (log 18).
-/
def Obligations.OneOperandInstructions : Prop :=
  (∀ q ∈ wordOne, ∀ d s ld s1 dv s2 t,
    locate d s = .ok ld s1 → readLoc 16 ld s1 = .ok dv s2 → writeLoc 16 ld (q.2 dv s2.psw).1 s2 = .ok () t →
    exec (q.1 d) s = .next (t.setPsw (q.2 dv s2.psw).2)) ∧
  (∀ q ∈ byteOne, ∀ d s ld s1 dv s2 t,
    locate d s = .ok ld s1 → readLoc 8 ld s1 = .ok dv s2 → writeLoc 8 ld (q.2 dv s2.psw).1 s2 = .ok () t →
    exec (q.1 d) s = .next (t.setPsw (q.2 dv s2.psw).2)) ∧
  (∀ (n : Nat) (d : BitVec n) (w p : Word), n = 8 ∨ n = 16 →
    (∀ k, k < n → (aluCmt d p).1.getLsbD k = !d.getLsbD k) ∧
    pswC (aluCmt d p).2 = pswC p ∧ pswV (aluCmt d p).2 = false ∧
    pswZ (aluCmt d p).2 = decide (d = BitVec.allOnes n) ∧ pswS (aluCmt d p).2 = !d.getLsbD (n - 1) ∧
    (aluCmt d p).2.extractLsb' 4 12 = p.extractLsb' 4 12 ∧
    (∀ k, k < 8 → (aluSwb w p).1.getLsbD k = w.getLsbD (k + 8) ∧ (aluSwb w p).1.getLsbD (k + 8) = w.getLsbD k) ∧
    pswC (aluSwb w p).2 = pswC p ∧ pswV (aluSwb w p).2 = false ∧ pswZ (aluSwb w p).2 = decide (w = 0) ∧
    pswS (aluSwb w p).2 = w.getLsbD 7 ∧ (aluSwb w p).2.extractLsb' 4 12 = p.extractLsb' 4 12)

/-- 42_one_operand_arith.md R237, R238, R243: STZ, STO and SXT write without reading: zeros, ones, or the old S in every
bit, with C kept, V = 0 and their Z and S; R242: CPZ reads without writing; R239: ABS makes no write cycle unless the
operand is negative. The page of STZ is lost: what it does is the spec's decision D22 (log 18). -/
def Obligations.StoreCompareAbs : Prop :=
  (∀ (n : Nat) (p : Word), n = 8 ∨ n = 16 →
    let row (x : BitVec n × Word) (bit z : Bool) : Prop :=
      (∀ k, k < n → x.1.getLsbD k = bit) ∧ pswC x.2 = pswC p ∧ pswV x.2 = false ∧ pswZ x.2 = z ∧ pswS x.2 = bit ∧
      x.2.extractLsb' 4 12 = p.extractLsb' 4 12
    row (aluStz p) false true ∧ row (aluSto p) true false ∧ row (aluSxt p) (pswS p) (!pswS p)) ∧
  ∀ d s,
    (∀ q ∈ wordStore, ∀ ld s1 t, locate d s = .ok ld s1 → writeLoc 16 ld (q.2 s1.psw).1 s1 = .ok () t →
      exec (q.1 d) s = .next (t.setPsw (q.2 s1.psw).2)) ∧
    (∀ q ∈ byteStore, ∀ ld s1 t, locate d s = .ok ld s1 → writeLoc 8 ld (q.2 s1.psw).1 s1 = .ok () t →
      exec (q.1 d) s = .next (t.setPsw (q.2 s1.psw).2)) ∧
    (∀ dv t, readOperand 16 d s = .ok dv t →
      exec (.cpz d) s = .next (t.setPsw (withCVZS t.psw false false (decide (dv = 0)) dv.msb))) ∧
    (∀ dv t, readOperand 8 d s = .ok dv t →
      exec (.cpzb d) s = .next (t.setPsw (withCVZS t.psw false false (decide (dv = 0)) dv.msb))) ∧
    (∀ ld s1 dv s2, locate d s = .ok ld s1 → readLoc 16 ld s1 = .ok dv s2 →
      (dv.msb = false → exec (.abs d) s = .next (s2.setPsw (aluAbs dv s2.psw).2)) ∧
      (∀ t, dv.msb = true → writeLoc 16 ld (-dv) s2 = .ok () t →
        exec (.abs d) s = .next (t.setPsw (aluAbs dv s2.psw).2))) ∧
    (∀ ld s1 dv s2, locate d s = .ok ld s1 → readLoc 8 ld s1 = .ok dv s2 →
      (dv.msb = false → exec (.absb d) s = .next (s2.setPsw (aluAbs dv s2.psw).2)) ∧
      (∀ t, dv.msb = true → writeLoc 8 ld (-dv) s2 = .ok () t →
        exec (.absb d) s = .next (t.setPsw (aluAbs dv s2.psw).2)))

/-- Operands that are general registers (40_addressing_modes.md R152): in every state the arithmetic, logic, compare,
move, exchange, store, absolute-value and shift instructions of one or two operands, word and byte, DJZ, and every long
shift on a register pair, complete with the result in the register, bits 15-8 kept by a byte form, and the flags in the
PSW. DCR, SB, STZ, SLE, SEC and SDCL rest on the spec's decision D22 (log 18), the flags of EXC on D21 (log 17). -/
def Obligations.RegisterFormsComplete : Prop :=
  let low (w : Word) : Byte := w.extractLsb' 0 8
  let join (w : Word) (b : Byte) : Word := w.extractLsb' 8 8 ++ b
  let logic {n : Nat} (p : Word) (r : BitVec n) : Word := withCVZS p (pswC p) false (decide (r = 0)) r.msb
  ∀ (s : State) (a b : GReg),
    (∀ q ∈ wordTwo, exec (q.1 (.direct a) (.direct b)) s =
      .next ((s.setG b (q.2 (s.getG a) (s.getG b) s.psw).1).setPsw (q.2 (s.getG a) (s.getG b) s.psw).2)) ∧
    (∀ q ∈ byteTwo, exec (q.1 (.direct a) (.direct b)) s =
      .next ((s.setG b (join (s.getG b) (q.2 (low (s.getG a)) (low (s.getG b)) s.psw).1)).setPsw
        (q.2 (low (s.getG a)) (low (s.getG b)) s.psw).2)) ∧
    (∀ q ∈ wordCompare, exec (q.1 (.direct a) (.direct b)) s =
      .next (s.setPsw (q.2 (s.getG a) (s.getG b) s.psw).2)) ∧
    (∀ q ∈ byteCompare, exec (q.1 (.direct a) (.direct b)) s =
      .next (s.setPsw (q.2 (low (s.getG a)) (low (s.getG b)) s.psw).2)) ∧
    exec (.mov (.direct a) (.direct b)) s = .next ((s.setG b (s.getG a)).setPsw (logic s.psw (s.getG a))) ∧
    exec (.movb (.direct a) (.direct b)) s =
      .next ((s.setG b (join (s.getG b) (low (s.getG a)))).setPsw (logic s.psw (low (s.getG a)))) ∧
    exec (.exc (.direct a) (.direct b)) s =
      .next (((s.setG a (s.getG b)).setG b (s.getG a)).setPsw (logic s.psw (s.getG a))) ∧
    exec (.excb (.direct a) (.direct b)) s =
      .next (((s.setG a (join (s.getG a) (low (s.getG b)))).setG b (join (s.getG b) (low (s.getG a)))).setPsw
        (logic s.psw (low (s.getG a)))) ∧
    exec (.djz (.direct a) (.direct b)) s = .next { s.setG a (s.getG a - 1) with
      psw := withCVZS s.psw (pswC s.psw) (decide (s.getG a = 0x8000)) (decide (s.getG a = 1)) (s.getG a - 1).msb
      pc := if s.getG a = 1 then s.pc else s.getG b &&& 0xFFFE } ∧
    (∀ q ∈ wordOne, exec (q.1 (.direct b)) s =
      .next ((s.setG b (q.2 (s.getG b) s.psw).1).setPsw (q.2 (s.getG b) s.psw).2)) ∧
    (∀ q ∈ byteOne, exec (q.1 (.direct b)) s =
      .next ((s.setG b (join (s.getG b) (q.2 (low (s.getG b)) s.psw).1)).setPsw (q.2 (low (s.getG b)) s.psw).2)) ∧
    (∀ q ∈ wordStore, exec (q.1 (.direct b)) s = .next ((s.setG b (q.2 s.psw).1).setPsw (q.2 s.psw).2)) ∧
    (∀ q ∈ byteStore, exec (q.1 (.direct b)) s =
      .next ((s.setG b (join (s.getG b) (q.2 s.psw).1)).setPsw (q.2 s.psw).2)) ∧
    exec (.cpz (.direct b)) s =
      .next (s.setPsw (withCVZS s.psw false false (decide (s.getG b = 0)) (s.getG b).msb)) ∧
    exec (.cpzb (.direct b)) s =
      .next (s.setPsw (withCVZS s.psw false false (decide (low (s.getG b) = 0)) (low (s.getG b)).msb)) ∧
    exec (.abs (.direct b)) s =
      .next ((s.setG b (aluAbs (s.getG b) s.psw).1).setPsw (aluAbs (s.getG b) s.psw).2) ∧
    exec (.absb (.direct b)) s =
      .next ((s.setG b (join (s.getG b) (aluAbs (low (s.getG b)) s.psw).1)).setPsw
        (aluAbs (low (s.getG b)) s.psw).2) ∧
    (∀ q ∈ longShifts, ∀ o p, pairOf o = some p → exec (q.1 o) s =
      .next ((s.setPair p (aluLongShift q.2 (s.getPair p) s.psw).1).setPsw
        (aluLongShift q.2 (s.getPair p) s.psw).2))

/-- 44_one_operand_control.md R302 to R310: what JMP, CLP, CMK, DMI, MKI and CSPS load, and what SLP, SMK and SSPS
store; no flag changes. The pages of SLP and DMI are lost; their effect is the spec's decision D22 (log 18). -/
def Obligations.ControlRegisterInstructions : Prop :=
  ∀ d s,
    (∀ v t, readOperand 16 d s = .ok v t →
      exec (.jmp d) s = .next { t with pc := v &&& 0xFFFE } ∧
      exec (.clp d) s = .next { t with lp := v } ∧
      exec (.cmk d) s = .next { t with imk := v &&& 0x7FFF } ∧
      exec (.dmi d) s = .next { t with imk := t.imk &&& ~~~v &&& 0x7FFF } ∧
      exec (.mki d) s = .next { t with imk := (t.imk ||| v) &&& 0x7FFF } ∧
      exec (.csps d) s = .next { t with sps := v &&& 0xFFFE }) ∧
    (∀ ld s1 t, locate d s = .ok ld s1 →
      (writeLoc 16 ld s1.lp s1 = .ok () t → exec (.slp d) s = .next t) ∧
      (writeLoc 16 ld s1.imk s1 = .ok () t → exec (.smk d) s = .next t) ∧
      (writeLoc 16 ld s1.sps s1 = .ok () t → exec (.ssps d) s = .next t))

/-- 44_one_operand_control.md R311 with the ASTROM fitted and on: SFGMB stores the byte of condition codes, bit by bit;
with it absent or off it stores a byte whose bit 0 is 0 (47_astrom.md R380, the spec's decision D23; log 19). The count
of free values is log 33. -/
def Obligations.SfgmbInstruction : Prop :=
  ∀ d s ld s1, locate d s = .ok ld s1 →
    (s.upfok = true → ∃ b : Byte,
      (b.getLsbD 0 = true ∧ b.getLsbD 1 = s.mf.zupf ∧ b.getLsbD 2 = s.mf.supf ∧ b.getLsbD 3 = s.mf.divz ∧
        b.getLsbD 4 = s.mf.ovfl ∧ b.getLsbD 5 = s.mf.undf ∧ b.getLsbD 6 = s.mf.cver ∧
        b.getLsbD 7 = !(s.mf.cver || s.mf.undf || s.mf.ovfl || s.mf.divz)) ∧
      ∀ t, writeLoc 8 ld b s1 = .ok () t → exec (.sfgmb d) s = .next t) ∧
    (s.upfok = false → ∃ b : Byte, b.getLsbD 0 = false ∧
      ∀ t, writeLoc 8 ld b { s1 with freeCount := s1.freeCount + 1 } = .ok () t → exec (.sfgmb d) s = .next t)

/-- 45_zero_operand.md R321 to R323: HALT, WAIT and NOP in every state; PC has moved past the word in the fetch. -/
def Obligations.HaltWaitNop : Prop :=
  ∀ s : State, exec .halt s = .next { s with run := .halt } ∧ exec .wait s = .next { s with run := .wait } ∧
    exec .nop s = .next s

/-- 46_parameter.md R340 to R363: every branch completes in every state; it goes to PC + 2 x offset where its condition
holds and changes nothing where it does not. Some of the pages are lost; their conditions are the spec's decision D22
(log 18). -/
def Obligations.BranchInstructions : Prop :=
  ∀ q ∈ branches, ∀ (o : BitVec 8) (s : State),
    exec (q.1 o) s = .next (if q.2 s.psw then { s with pc := (s.pc + 2 * o.signExtend 16) &&& 0xFFFE } else s)

/-- 46_parameter.md R364 to R369: ERC, CFO, CFZ, CCC and CNM in every state: the new PSW bit by bit, and the skip of
ERC. -/
def Obligations.MaskInstructions : Prop :=
  ∀ (k : BitVec 7) (l : BitVec 4) (s : State),
    (∃ p, exec (.cfo k) s = .next { s with psw := p } ∧
      ∀ j, p.getLsbD j = (s.psw.getLsbD j || (decide (j < 7) && k.getLsbD j))) ∧
    (∃ p, exec (.cfz k) s = .next { s with psw := p } ∧
      ∀ j, p.getLsbD j = (s.psw.getLsbD j && (decide (7 ≤ j) || k.getLsbD j))) ∧
    (∃ p, exec (.ccc k) s = .next { s with psw := p } ∧
      ∀ j, p.getLsbD j = if j < 7 then k.getLsbD j else s.psw.getLsbD j) ∧
    ((∀ j, j < 7 → k.getLsbD j = true → s.psw.getLsbD j = true) →
      ∃ p, exec (.erc k) s = .next { s with psw := p, pc := (s.pc + 2) &&& 0xFFFE } ∧
        ∀ j, p.getLsbD j = (s.psw.getLsbD j && !(decide (j < 7) && k.getLsbD j))) ∧
    ((∃ j, j < 7 ∧ k.getLsbD j = true ∧ s.psw.getLsbD j = false) → exec (.erc k) s = .next s) ∧
    (∃ p, exec (.cnm l) s = .next { s with psw := p } ∧
      ∀ j, p.getLsbD j = if 8 ≤ j ∧ j ≤ 11 then l.getLsbD (j - 8) else s.psw.getLsbD j)

/-- 45_zero_operand.md R329: SRG pushes RF, RE, RD, RC, RB, RA, so that upwards from the new SP lie RA to RF; R330: CRG
pops RA, RB, RC, RD, RE, RF; SP ends 12 higher. The note of stores is the model's (log 7). -/
def Obligations.SaveAndRestoreRegisters : Prop :=
  ∀ s : State,
    (12 ≤ s.sp.toNat → s.frameAt (s.sp - 12) →
      ∃ t, exec .srg s = .next t ∧ t.sp = s.sp - 12 ∧
        t.mem.read true (s.sp - 12) = s.ra ∧ t.mem.read true (s.sp - 10) = s.rb ∧
        t.mem.read true (s.sp - 8) = s.rc ∧ t.mem.read true (s.sp - 6) = s.rd ∧
        t.mem.read true (s.sp - 4) = s.re ∧ t.mem.read true (s.sp - 2) = s.rf ∧
        (∀ a, a < s.sp.toNat - 12 ∨ s.sp.toNat ≤ a → t.mem.readByte a = s.mem.readByte a) ∧
        t = { s with sp := t.sp, mem := t.mem, stored := t.stored }) ∧
    (s.frameAt s.sp →
      exec .crg s = .next { s with
        ra := s.mem.read true s.sp, rb := s.mem.read true (s.sp + 2), rc := s.mem.read true (s.sp + 4)
        rd := s.mem.read true (s.sp + 6), re := s.mem.read true (s.sp + 8), rf := s.mem.read true (s.sp + 10)
        sp := s.sp + 12 })

/-! ### Exceptions -/

/-- 60_exceptions.md R441 and 20_memory.md R77: the vectors. -/
def Obligations.VectorTable : Prop :=
  trapVector .stackLimit = 0xFF84 ∧ trapVector .oddAddress = 0xFF88 ∧ trapVector .busTimeout = 0xFF8C ∧
  trapVector .parity = 0xFF90 ∧ trapVector .astrom = 0xFF94 ∧ breakpointVector = 0xFF98 ∧
  trapVector .invalidOpcode = 0xFF9C ∧
  (∀ n : BitVec 3, (softVector n).toNat = 0xFFA0 + 4 * n.toNat) ∧
  (∀ n, n < 16 → (interruptVector n).toNat = 0xFFC0 + 4 * n)

/-- 60_exceptions.md R450: with room on the system stack and a readable vector an entry pushes PC, then PSW, loads both
from the vector and puts the CPU in RUN, the same for BTP (45_zero_operand.md R328), TRAPn (R331), interrupts, and the
ASTROM and invalid-operation-code traps. That a raised trap also clears `bp_armed` (60_exceptions.md R469) is the spec's
decision D12 (log 9), that it stacks the PC of that moment, for an invalid code the address after its word, D10
(log 8). -/
def Obligations.TrapEntryResult : Prop :=
  (∀ (s : State) (savedPc vec : Word), s.entryRoom vec →
    trapEntry savedPc vec s = .ok () (entryState savedPc vec s) ∧
    enterEvent vec s = .next (entryState s.pc vec s) ∧
    (entryState savedPc vec s).mem.read true (s.sps - 2) = savedPc ∧
    (entryState savedPc vec s).mem.read true (s.sps - 4) = s.psw ∧
    (∀ a, a < s.sps.toNat - 4 ∨ s.sps.toNat ≤ a →
      (entryState savedPc vec s).mem.readByte a = s.mem.readByte a)) ∧
  (∀ s : State, s.entryRoom breakpointVector → exec .btp s = .next (entryState s.pc breakpointVector s)) ∧
  (∀ (s : State) (n : BitVec 3), s.entryRoom (softVector n) →
    exec (.trapn n) s = .next (entryState s.pc (softVector n) s)) ∧
  (∀ (s : State) (e : Trap), s.entryRoom (trapVector e) → e = .astrom ∨ e = .invalidOpcode →
    raiseInInstr e s = .next (entryState s.pc (trapVector e) { s with bpArmed := false }))

/-- 60_exceptions.md R452: an entry that finds no room on the system stack stops the CPU, with SPS already two lower and
PC and PSW as they were (that the steps already done stay done is the spec's decision D15; log 12); so does EXS on an
empty system stack, with nothing changed. -/
def Obligations.SystemStackFaultHalts : Prop :=
  (∀ (s : State) (vec : Word),
    (0xF7FF < ((s.sps - 2) &&& 0xFFFE).toNat ∨ ((s.sps - 2) &&& 0xFFFE).toNat < s.lp.toNat) →
    enterEvent vec s = .next { s with sps := (s.sps - 2) &&& 0xFFFE, run := .halt }) ∧
  (∀ s : State, (0xF7FF < s.sps.toNat ∨ s.sps.toNat < s.lp.toNat) → exec .exs s = .next { s with run := .halt })

/-- 45_zero_operand.md R326, R327: RTT and RTI pop PSW, then PC, and change nothing else. A pop outside the limits stops
the CPU in HALT (20_memory.md R81); that all else is then as it was is the spec's decision D15 (log 12). That a return
right after an entry gives back PC, PSW and SPS is inferred from R326 and 60_exceptions.md R450. RTI is a second name of
RTT (log 31). -/
def Obligations.ReturnInstructions : Prop :=
  ∀ i ∈ [Instr.rtt, .rti],
    (∀ s : State, s.returnRoom → exec i s = .next { s with
      psw := s.mem.read true s.sps, pc := s.mem.read true (s.sps + 2) &&& 0xFFFE, sps := s.sps + 4 }) ∧
    (∀ s : State, (0xF7FF < s.sps.toNat ∨ s.sps.toNat < s.lp.toNat) → exec i s = .next { s with run := .halt }) ∧
    (∀ (s : State) (vec : Word), s.entryRoom vec → s.pc.getLsbD 0 = false →
      ∃ t, exec i (entryState s.pc vec s) = .next t ∧ t.pc = s.pc ∧ t.psw = s.psw ∧ t.sps = s.sps)

/-- 45_zero_operand.md R325: EXS exchanges PC and PSW with the two words on top of the system stack; SPS ends unchanged.
`stored` is the model's note of the program's own stores (log 7), left open here. The canonical memory is the model's
(log 26). -/
def Obligations.ExsInstruction : Prop :=
  ∀ s : State, s.returnRoom → s.mem.wf = true → s.ramAt s.sps = true → s.ramAt (s.sps + 2) = true →
    ∃ t, exec .exs s = .next t ∧
      t.psw = s.mem.read true s.sps ∧ t.pc = s.mem.read true (s.sps + 2) &&& 0xFFFE ∧
      t.mem.read true s.sps = s.psw ∧ t.mem.read true (s.sps + 2) = s.pc ∧
      (∀ a, a < s.sps.toNat ∨ s.sps.toNat + 4 ≤ a → t.mem.readByte a = s.mem.readByte a) ∧
      t = { s with psw := t.psw, pc := t.pc, mem := t.mem, stored := t.stored }

/-- 70_reset_and_hazards.md R501: with a readable reset vector, a reset loads the registers of Tabela 2.2, PSW and PC
from the vector, and ends in HALT; RST (45_zero_operand.md R324) and the panel RESET do the same. That the panel's RESET
is taken at the start of a step is log 24, the inputs of the next step are log 29, bp_armed = 0 is the spec's decision
D12 (log 9). -/
def Obligations.ResetSequence : Prop :=
  ∀ s : State, s.calm → s.memoryAt 0xFF80 = true → s.memoryAt 0xFF82 = true →
    ∃ t, exec .rst s = .next t ∧
      (s.inp.reset = true → step s = .next (advanceInputs t)) ∧
      t.sps = 0xF800 ∧ t.sp = 0xF700 ∧ t.lp = 0xF600 ∧ t.imk = 0 ∧
      t.psw = s.mem.read true 0xFF80 ∧ t.pc = s.mem.read true 0xFF82 &&& 0xFFFE ∧
      t.bpArmed = false ∧ t.run = .halt ∧ t.mem = s.mem ∧ t.events = .devReset :: s.events ∧
      (∀ r, t.getG r = s.getG r)

/-! ### The instruction cycle -/

/-- A step runs the decoded instruction: in RUN with no reset pressed, the word fetched at PC is decoded and executed,
the boundary follows (60_exceptions.md R469), then the model's own bookkeeping: what a prefetch may have missed (log 7)
and the inputs of the next step (log 29). That `bp_armed` takes PSW.B before the fetch, which decides the boundary, is
the spec's decision D12 (log 9); that a word of `BASE_EXEMPT_INSTR` runs with its data accesses without the base is log
6 (20_memory.md R78; D7). -/
def Obligations.StepRunsDecodedInstruction : Prop :=
  ∀ (s s1 : State) (w : Word) (i : Instr), s.inp.reset = false → s.run = .run →
    fetch16 { s with bpArmed := pswB s.cfg.pswLayout s.psw, noBase := false, stored := [] } = .ok w s1 →
    decode s1.cfg w = .ok i →
    step s = andThen (andThen (andThen (exec i { s1 with noBase := Config.isExempt s1.cfg w }) boundary) fun t =>
      .next (endInstr s1 i.extWords t)) fun t => .next (advanceInputs t)

/-- 60_exceptions.md R448: a word that is no instruction raises the invalid-operation-code trap with the address after
it as the stacked PC, and with nothing else done (the spec's decisions D10 and D18; logs 8 and 15); the boundary
follows, then the model's own bookkeeping: what a prefetch may have missed (log 7) and the inputs of the next step (log
29). That `bp_armed` takes PSW.B before the fetch, and that the trap clears it, is the spec's decision D12 (log 9). That
no exemption from the base is in force is log 6. -/
def Obligations.InvalidCodeTraps : Prop :=
  ∀ (s : State) (e : DecodeError), s.inp.reset = false → s.run = .run → s.calm → s.pc.getLsbD 0 = false →
    s.memoryAt (s.relocStream s.pc) = true → decode s.cfg (s.mem.read true (s.relocStream s.pc)) = .error e →
    ∃ s1, s1 = { s with bpArmed := pswB s.cfg.pswLayout s.psw, noBase := false, stored := [], pc := s.pc + 2 } ∧
      step s = andThen (andThen (andThen (raiseInInstr .invalidOpcode s1) boundary) fun t =>
        .next (endInstr s1 0 t)) fun t => .next (advanceInputs t)

/-- 60_exceptions.md R455 and R447: PARE and HALT come first; then the breakpoint entry where `bp_armed` is set (the
spec's decision D12; log 9); then the interrupts: while one is accepted it is acknowledged and entered, and the boundary
ends where none is accepted or the CPU is in HALT; with one entry only where `ENTRY_IS_BOUNDARY` is false (the spec's
decision D27; log 22). The bound k of the loop is the model's, which no state uses up (log 14); that a line falls at its
acknowledge is the device's choice (log 29). -/
def Obligations.BoundaryOrder : Prop :=
  (∀ s : State,
    (s.inp.pare = true → boundary s = .next { s with run := .halt }) ∧
    (s.run = .halt → boundary s = .next s) ∧
    (s.inp.pare = false → s.run ≠ .halt → s.bpArmed = false → selectInterrupt s = none → boundary s = .next s) ∧
    (s.inp.pare = false → s.run ≠ .halt → s.cfg.entryIsBoundary = false → s.bpArmed = true →
      boundary s = enterEvent 0xFF98 { s with bpArmed := false }) ∧
    (∀ n, s.inp.pare = false → s.run ≠ .halt → s.cfg.entryIsBoundary = false → s.bpArmed = false →
      selectInterrupt s = some n → boundary s = enterEvent (interruptVector n) (intAck n s)) ∧
    (∀ t, s.inp.pare = false → s.run ≠ .halt → s.cfg.entryIsBoundary = true → s.bpArmed = true →
      enterEvent 0xFF98 { s with bpArmed := false } = .next t → boundary s = interruptLoop entryFuel t) ∧
    (∀ n t, s.inp.pare = false → s.run ≠ .halt → s.cfg.entryIsBoundary = true → s.bpArmed = false →
      selectInterrupt s = some n → enterEvent (interruptVector n) (intAck n s) = .next t →
      boundary s = interruptLoop (entryFuel - 1) t) ∧
    (∀ t, s.cfg.entryIsBoundary = true → boundary s = .next t → t.run = .halt ∨ selectInterrupt t = none)) ∧
  (∀ (s : State) (k : Nat),
    (s.run = .halt ∨ selectInterrupt s = none → interruptLoop (k + 1) s = .next s) ∧
    (∀ n t, s.run ≠ .halt → selectInterrupt s = some n → enterEvent (interruptVector n) (intAck n s) = .next t →
      interruptLoop (k + 1) s = if s.cfg.entryIsBoundary then interruptLoop k t else .next t)) ∧
  (∀ (s : State) (n : Nat), n < 16 →
    (intAck n s).events = .intAck n :: s.events ∧
    (∀ j, (intAck n s).inp.pi.getLsbD j = (s.inp.pi.getLsbD j && !(decide (j = n) && s.inp.dropOnAck.getLsbD n))) ∧
    intAck n s = { s with events := (intAck n s).events, inp := { s.inp with pi := (intAck n s).inp.pi } })

/-- 60_exceptions.md R457 to R459: the level selected is requested, not masked, not below LEVEL, and the highest such;
none is selected only where there is none. -/
def Obligations.InterruptSelection : Prop :=
  ∀ s : State,
    (∀ n, selectInterrupt s = some n ↔
      (n < 16 ∧ s.inp.pi.getLsbD n = true ∧ s.imk.getLsbD n = false ∧ (pswLevel s.psw).toNat ≤ n ∧
        ∀ k, n < k → k < 16 → ¬(s.inp.pi.getLsbD k = true ∧ s.imk.getLsbD k = false ∧ (pswLevel s.psw).toNat ≤ k))) ∧
    (selectInterrupt s = none ↔
      ∀ k, k < 16 → ¬(s.inp.pi.getLsbD k = true ∧ s.imk.getLsbD k = false ∧ (pswLevel s.psw).toNat ≤ k)) ∧
    (s.imk.getLsbD 15 = false → s.inp.pi.getLsbD 15 = true → selectInterrupt s = some 15)

/-- 60_exceptions.md R466 to R469: in WAIT and in HALT nothing is executed: without an accepted interrupt, PARE, panel
or reset the machine stays as it is. An accepted interrupt ends WAIT, and others may follow as at a boundary. No
interrupt ends HALT, where the panel may edit; EXECUTE goes to RUN, takes a breakpoint trap that is still due or the
interrupts accepted, and goes on at PC; a single step runs what a step in RUN would and returns to HALT (the spec's
decisions D12, D27, D28 and D29; logs 9, 22, 23 and 24). The inputs of the next step are the model's (log 29). -/
def Obligations.WaitAndHaltStay : Prop :=
  ∀ s : State, s.inp.reset = false →
    (s.run = .wait → s.inp.pare = false → selectInterrupt s = none → step s = .next (advanceInputs s)) ∧
    (s.run = .wait → s.inp.pare = true → step s = .next (advanceInputs { s with run := .halt })) ∧
    (∀ n t, s.run = .wait → s.inp.pare = false → selectInterrupt s = some n →
      enterEvent (interruptVector n) (intAck n s) = .next t →
      (s.cfg.entryIsBoundary = false → step s = .next (advanceInputs t)) ∧
      (∀ u, s.cfg.entryIsBoundary = true → interruptLoop (entryFuel - 1) t = .next u →
        step s = .next (advanceInputs u))) ∧
    (s.run = .halt → s.inp.execute = false → s.inp.stepOne = false →
      step s = .next (advanceInputs (s.inp.edits.foldl applyEdit s)) ∧
      (s.inp.edits = [] → step s = .next (advanceInputs s))) ∧
    (∀ e, s.run = .halt → s.inp.execute = true → e = { s.inp.edits.foldl applyEdit s with run := .run } →
      (e.bpArmed = false → selectInterrupt e = none → step s = .next (advanceInputs e)) ∧
      (∀ n t, e.bpArmed = false → selectInterrupt e = some n →
        enterEvent (interruptVector n) (intAck n e) = .next t →
        (s.cfg.entryIsBoundary = false → step s = .next (advanceInputs t)) ∧
        (∀ u, s.cfg.entryIsBoundary = true → interruptLoop (entryFuel - 1) t = .next u →
          step s = .next (advanceInputs u))) ∧
      (∀ t, e.bpArmed = true → enterEvent 0xFF98 { e with bpArmed := false } = .next t →
        (s.cfg.entryIsBoundary = false → step s = .next (advanceInputs t)) ∧
        (∀ u, s.cfg.entryIsBoundary = true → interruptLoop entryFuel t = .next u →
          step s = .next (advanceInputs u)))) ∧
    (∀ u, s.run = .halt → s.inp.execute = false → s.inp.stepOne = true →
      stepNow { s.inp.edits.foldl applyEdit s with run := .run } = .next u →
      step s = .next (advanceInputs { u with run := .halt }))

/-! ### The ASTROM -/

/-- 47_astrom.md R389: an integer result in range is exact and zero-extended, with ZUPF and SUPF by its value and no
trap; out of range it sets OVFL, a zero divisor sets DIVZ (the spec's decision D24; log 20), ZUPF and SUPF are by the
integer that was delivered and CVER is 0 (R384; log 20). Division truncates where the configuration says so. What the
exceptional results are beyond that is open (D14; log 11). -/
def Obligations.AstromIntegerResults : Prop :=
  ∀ (c : Config) (acc : Long) (b : Word) (op : AstromOp) (e : Int), c.divRounding = .towardZero →
    let a := (acc.extractLsb' 0 16).toInt
    (op, e) ∈ [(AstromOp.add, a + b.toInt), (.sub, a - b.toInt), (.mul, a * b.toInt), (.div, Int.tdiv a b.toInt),
      (.neg, -b.toInt), (.abs, |b.toInt|)] →
    ((op = .div → b ≠ 0) → -32768 ≤ e → e ≤ 32767 →
      ((intOp op c acc b).1.extractLsb' 0 16).toInt = e ∧ (intOp op c acc b).1.toNat < 65536 ∧
      (intOp op c acc b).2 = ⟨decide (e = 0), decide (e < 0), false, false, false, false⟩ ∧
      raisesTrap (intOp op c acc b).2 = false) ∧
    ((op = .div → b ≠ 0) → (e < -32768 ∨ 32767 < e) →
      (intOp op c acc b).2.ovfl = true ∧ raisesTrap (intOp op c acc b).2 = true) ∧
    (op = .div → b = 0 → (intOp op c acc b).2.divz = true ∧ raisesTrap (intOp op c acc b).2 = true) ∧
    (intOp op c acc b).2.zupf = decide (((intOp op c acc b).1.extractLsb' 0 16).toInt = 0) ∧
    (intOp op c acc b).2.supf = decide (((intOp op c acc b).1.extractLsb' 0 16).toInt < 0) ∧
    (intOp op c acc b).2.cver = false

/-- 47_astrom.md R386, R388, R390 to R397, R406, R410: with the unit up each integer instruction writes AC1 and the
codes and nothing else of the state its operand read left; where the result has OVFL or DIVZ the ASTROM trap is then
raised from that state, and with room for it has been entered with the next instruction's address stacked. That only
bits 15-0 of a register are read is the spec's decision D24 (log 20), that AC1 and the codes are written before the trap
D25 (log 21), that the trap clears `bp_armed` D12 (log 9). What an exceptional result is stays open (D14; log 11). -/
def Obligations.AstromIntegerInstructions : Prop :=
  let outcome (i : Instr) (s u : State) : Prop :=
    (raisesTrap u.mf = false → exec i s = .next u) ∧
    (raisesTrap u.mf = true → exec i s = raiseInInstr .astrom u ∧
      (u.entryRoom 0xFF94 → exec i s = .next (entryState u.pc 0xFF94 { u with bpArmed := false })))
  ∀ (s : State) (a : AcReg), s.upfok = true →
    (∀ q ∈ astromIntP, ∀ p v t, readOperand 16 p s = .ok v t →
      outcome (q.1 a p) s { t.setM a (intOp q.2 s.cfg (s.getM a) v).1 with
        mf := (intOp q.2 s.cfg (s.getM a) v).2 }) ∧
    (∀ q ∈ astromIntM, ∀ b,
      outcome (q.1 a b) s { s.setM a (intOp q.2 s.cfg (s.getM a) ((s.getM b).extractLsb' 0 16)).1 with
        mf := (intOp q.2 s.cfg (s.getM a) ((s.getM b).extractLsb' 0 16)).2 })

/-- 47_astrom.md R385, R417 to R421: the five transfers, with all six codes 0 and UPFOK as it was (the spec's decision
D26; log 21). Which register of a pair is the high word is D3 (log 3). -/
def Obligations.AstromTransfers : Prop :=
  ∀ (s : State) (a b : AcReg), s.upfok = true →
    exec (.cprgi a b) s = .next { s.setM a (s.getM b) with mf := ⟨false, false, false, false, false, false⟩ } ∧
    (∀ p v t, readOperand 16 p s = .ok v t →
      exec (.cri a p) s = .next { t.setM a (v.setWidth 32) with mf := ⟨false, false, false, false, false, false⟩ }) ∧
    (∀ p q, pairOf p = some q →
      exec (.crpf a p) s = .next { s.setM a (s.getPair q) with mf := ⟨false, false, false, false, false, false⟩ } ∧
      exec (.azpf a p) s = .next { s.setPair q (s.getM a) with
        mf := ⟨false, false, false, false, false, false⟩ }) ∧
    (∀ p l s1 t, locate p s = .ok l s1 → writeLoc 16 l ((s.getM a).extractLsb' 0 16) s1 = .ok () t →
      exec (.azi a p) s = .next { t with mf := ⟨false, false, false, false, false, false⟩ })

/-- 47_astrom.md R386, R388, R398 to R405, R407 to R409, R411 to R416: with the unit up and room for the ASTROM trap,
each floating-point and conversion instruction completes: AC1, where it is written, and the codes get what the opaque
function gives; where a code DIVZ, OVFL, UNDF or CVER is set the ASTROM trap has then been entered, with the next
instruction's address stacked. The statement holds for every value of the opaque functions (the spec's decision D14; log
11); that AC1 and the codes are written before the trap is D25 (log 21), ABPF, whose page is lost, D22 (log 18), that
IPFM reads bits 15-0 of AC2 D24 (log 20), that the trap clears `bp_armed` D12 (log 9). Which register of a pair is the
high word is D3 (log 3). -/
def Obligations.AstromFloatInstructions : Prop :=
  let done (s : State) (acc : Bool) (a : AcReg) (x : Long × AstromCodes) : State :=
    if acc then { s.setM a x.1 with mf := x.2 } else { s with mf := x.2 }
  let outcome (r : Result) (u : State) (trap : Bool) : Prop :=
    r = .next (if trap then entryState u.pc 0xFF94 { u with bpArmed := false } else u)
  ∀ (s : State) (a : AcReg), s.upfok = true → s.entryRoom 0xFF94 →
    (∀ q ∈ astromFloatP, ∀ p r, pairOf p = some r →
      outcome (exec (q.1 a p) s) (done s q.2.1 a (q.2.2 s.cfg (s.getM a) (s.getPair r)))
        (raisesTrap (q.2.2 s.cfg (s.getM a) (s.getPair r)).2)) ∧
    (∀ q ∈ astromFloatM, ∀ b,
      outcome (exec (q.1 a b) s) (done s q.2.1 a (q.2.2 s.cfg (s.getM a) (s.getM b)))
        (raisesTrap (q.2.2 s.cfg (s.getM a) (s.getM b)).2)) ∧
    (∀ b, outcome (exec (.ipfm a b) s) (done s true a (itofOp s.cfg (s.getM a) ((s.getM b).extractLsb' 0 16)))
      (raisesTrap (itofOp s.cfg (s.getM a) ((s.getM b).extractLsb' 0 16)).2)) ∧
    (∀ r, outcome (exec (.ipfp a (.direct r)) s) (done s true a (itofOp s.cfg (s.getM a) (s.getG r)))
      (raisesTrap (itofOp s.cfg (s.getM a) (s.getG r)).2)) ∧
    (∀ p v t, readOperand 16 p s = .ok v t → t.entryRoom 0xFF94 →
      outcome (exec (.ipfp a p) s) (done t true a (itofOp t.cfg (t.getM a) v))
        (raisesTrap (itofOp t.cfg (t.getM a) v).2))

/-- 47_astrom.md R384: what the spec does say of the opaque functions (its decision D14; log 11): ZUPF and SUPF agree
with the result, which of a conversion to integer is read as an integer, a zero divisor sets DIVZ, CVER comes from a
conversion to integer only, whose result without CVER is a zero-extended integer. -/
def Obligations.AstromFunctionConstraints : Prop :=
  ∀ (c : Config) (acc v : Long) (w : Word),
    (∀ f ∈ [faddOp, fsubOp, fmulOp, fdivOp, fnegOp, fabsOp],
      (f c acc v).2.zupf = Config.fpIsZero (f c acc v).1 ∧ (f c acc v).2.supf = Config.fpIsNeg (f c acc v).1 ∧
      (f c acc v).2.cver = false) ∧
    ((itofOp c acc w).2.zupf = Config.fpIsZero (itofOp c acc w).1 ∧
      (itofOp c acc w).2.supf = Config.fpIsNeg (itofOp c acc w).1 ∧ (itofOp c acc w).2.cver = false) ∧
    (fdivOp c acc v).2.divz = Config.fpIsZero v ∧
    ((ftoiOp c acc v).2.cver = true ∨ (ftoiOp c acc v).1.toNat < 65536) ∧
    (ftoiOp c acc v).2.zupf = decide (((ftoiOp c acc v).1.extractLsb' 0 16).toInt = 0) ∧
    (ftoiOp c acc v).2.supf = decide (((ftoiOp c acc v).1.extractLsb' 0 16).toInt < 0)

/-- 47_astrom.md R386: with UPFOK = 0 each of the 32 instructions ends in the ASTROM trap; the operand has been located
and, where it is a source, read; m[], the six codes and the destination are unchanged (the spec's decision D23; log 19).
ABPF is one of them by D22 (log 18). -/
def Obligations.AstromOffTraps : Prop :=
  ∀ (s : State) (a b : AcReg), s.upfok = false →
    (∀ q ∈ astromIntM, exec (q.1 a b) s = raiseInInstr .astrom s) ∧
    (∀ q ∈ astromFloatM, exec (q.1 a b) s = raiseInInstr .astrom s) ∧
    (∀ i ∈ [Instr.ipfm a b, .cprgi a b], exec i s = raiseInInstr .astrom s) ∧
    (∀ p r, pairOf p = some r →
      (∀ q ∈ astromFloatP, exec (q.1 a p) s = raiseInInstr .astrom s) ∧
      exec (.crpf a p) s = raiseInInstr .astrom s ∧ exec (.azpf a p) s = raiseInInstr .astrom s) ∧
    (∀ p v t, readOperand 16 p s = .ok v t →
      (∀ q ∈ astromIntP, exec (q.1 a p) s = raiseInInstr .astrom t) ∧
      exec (.ipfp a p) s = raiseInInstr .astrom t ∧ exec (.cri a p) s = raiseInInstr .astrom t) ∧
    (∀ p l t, locate p s = .ok l t → exec (.azi a p) s = raiseInInstr .astrom t)

/-! ### What instructions leave unchanged -/

/-- 10_state.md R25: a general register changes only where the instruction names it as a destination, or is CRG, also
where the instruction ends in a trap; and a byte instruction leaves the high byte of every one as it is (R22). What is
left where an instruction ends in a trap is the spec's decision D10 (log 8). -/
def Obligations.GeneralRegisterFrame : Prop :=
  ∀ (i : Instr) (s t : State) (r : GReg), exec i s = .next t →
    (i.writesG r = false → t.getG r = s.getG r) ∧
    (i.isByte = true → (t.getG r).extractLsb' 8 8 = (s.getG r).extractLsb' 8 8)

/-- SP changes only by an autodecrement or autoincrement operand, as a destination, or in JSB, RET, SRG, CRG and RST; LP
only by CLP and RST; MK only by CMK, DMI, MKI and RST; also where the instruction ends in a trap (10_state.md R26, R29,
R32); SPS only by CSPS, RST, EXS, an entry, a return or a trap. Where no exception was taken (SPS is as it was) an
instruction that is not an entry, a return or a reset leaves BASE and B of the PSW, LEVEL unless it is CNM, the ASTROM
unless it is one of its instructions, `bp_armed`, the processor state unless it is HALT or WAIT, the configuration and
the inputs (10_state.md R31, R36). `bp_armed` is the hidden bit of 10_state.md R41 and 60_exceptions.md R447, the spec's
decision D12 (log 9); what a trap leaves is D10 (log 8), DMI is D22 (log 18), the places of BASE and B are D5 (log 2).
`stale` and `noBase` are the model's own fields (logs 7 and 6), and so are the inputs and the script (log 29). -/
def Obligations.SpecialRegisterFrame : Prop :=
  ∀ (i : Instr) (s t : State), exec i s = .next t →
    (i.writesSp = false → t.sp = s.sp) ∧
    ((∀ o, i ≠ .clp o) → i ≠ .rst → t.lp = s.lp) ∧
    ((∀ o, i ≠ .cmk o) → (∀ o, i ≠ .dmi o) → (∀ o, i ≠ .mki o) → i ≠ .rst → t.imk = s.imk) ∧
    (i.writesSps = false → t.sps = s.sps ∨ ∃ e u, exec i s = raiseInInstr e u ∧ u.sps = s.sps) ∧
    (i.writesSps = false → t.sps = s.sps →
      pswBase s.cfg.pswLayout t.psw = pswBase s.cfg.pswLayout s.psw ∧
      pswB s.cfg.pswLayout t.psw = pswB s.cfg.pswLayout s.psw ∧
      ((∀ l, i ≠ .cnm l) → pswLevel t.psw = pswLevel s.psw) ∧
      (i.isAstrom = false → t.m = s.m ∧ t.mf = s.mf) ∧
      (i ≠ .halt → i ≠ .wait → t.run = s.run) ∧
      t.bpArmed = s.bpArmed ∧ t.cfg = s.cfg ∧ t.inp = s.inp ∧ t.script = s.script ∧ t.stale = s.stale ∧
      t.noBase = s.noBase)

/-- 10_state.md R44: where no exception was taken (SPS is as it was), C, V, Z and S are kept, forced or set by result as
the summary says, and T1, T2, T3 are kept by every instruction that does not load or mask the whole group. The rows of
the instructions whose page is lost are the spec's decision D22 (log 18), Z and S of EXC D21 (log 17). -/
def Obligations.FlagWriters : Prop :=
  ∀ (i : Instr) (row : FlagRow) (s t : State), i.flagRow = some row → exec i s = .next t → t.sps = s.sps →
    row.c.allows (pswC s.psw) (pswC t.psw) ∧ row.v.allows (pswV s.psw) (pswV t.psw) ∧
    row.z.allows (pswZ s.psw) (pswZ t.psw) ∧ row.s.allows (pswS s.psw) (pswS t.psw) ∧
    pswT1 t.psw = pswT1 s.psw ∧ pswT2 t.psw = pswT2 s.psw ∧ pswT3 t.psw = pswT3 s.psw

/-- Where no exception was taken and no ADMP edit is to come, an instruction that stores nothing leaves every byte of
memory as it is (20_memory.md R86). ADMP edits are log 13. -/
def Obligations.NonStoringInstructionsKeepMemory : Prop :=
  ∀ (i : Instr) (s t : State), s.admp = [] → exec i s = .next t → i.writesSps = false → t.sps = s.sps →
    i.storesNothing = true → ∀ a, t.mem.readByte a = s.mem.readByte a

/-- Where no exception was taken and no ADMP edit is to come, an instruction with one destination leaves every byte of
memory as it is, but those of its destination as located (20_memory.md R72, R86). ADMP edits are log 13, the canonical
memory log 26; the instructions whose page is lost store by the spec's decision D22 (log 18). -/
def Obligations.StoringInstructionsKeepOtherBytes : Prop :=
  ∀ (s t : State) (a : Nat), s.admp = [] → s.mem.wf = true → t.sps = s.sps →
    (∀ f d sv s1 ld s2, readOperand 16 f s = .ok sv s1 → locate d s1 = .ok ld s2 → a ∉ storedBytes 16 ld s2 →
      ∀ i ∈ Instr.mov f d :: wordTwo.map (fun q => q.1 f d), exec i s = .next t →
        t.mem.readByte a = s.mem.readByte a) ∧
    (∀ f d sv s1 ld s2, readOperand 8 f s = .ok sv s1 → locate d s1 = .ok ld s2 → a ∉ storedBytes 8 ld s2 →
      ∀ i ∈ Instr.movb f d :: byteTwo.map (fun q => q.1 f d), exec i s = .next t →
        t.mem.readByte a = s.mem.readByte a) ∧
    (∀ d ld s1, locate d s = .ok ld s1 → a ∉ storedBytes 16 ld s1 →
      ∀ i ∈ [Instr.abs d, .slp d, .smk d, .ssps d, .ret d] ++ wordOne.map (fun q => q.1 d) ++
        wordStore.map (fun q => q.1 d), exec i s = .next t → t.mem.readByte a = s.mem.readByte a) ∧
    (∀ d ld s1, locate d s = .ok ld s1 → a ∉ storedBytes 8 ld s1 →
      ∀ i ∈ [Instr.absb d, .sfgmb d] ++ byteOne.map (fun q => q.1 d) ++ byteStore.map (fun q => q.1 d),
        exec i s = .next t → t.mem.readByte a = s.mem.readByte a) ∧
    (∀ k p l s1, locate p s = .ok l s1 → a ∉ storedBytes 16 l s1 → exec (.azi k p) s = .next t →
      t.mem.readByte a = s.mem.readByte a) ∧
    (∀ f d lf s1, locate f s = .ok lf s1 → a ∉ storedBytes 16 lf s1 → exec (.djz f d) s = .next t →
      t.mem.readByte a = s.mem.readByte a) ∧
    (∀ f d lf s1 sv s2 ld s3, locate f s = .ok lf s1 → readLoc 16 lf s1 = .ok sv s2 → locate d s2 = .ok ld s3 →
      a ∉ storedBytes 16 lf s3 → a ∉ storedBytes 16 ld s3 → exec (.exc f d) s = .next t →
      t.mem.readByte a = s.mem.readByte a) ∧
    (∀ f d lf s1 sv s2 ld s3, locate f s = .ok lf s1 → readLoc 8 lf s1 = .ok sv s2 → locate d s2 = .ok ld s3 →
      a ∉ storedBytes 8 lf s3 → a ∉ storedBytes 8 ld s3 → exec (.excb f d) s = .next t →
      t.mem.readByte a = s.mem.readByte a) ∧
    (∀ f d lf s1, locate f s = .ok lf s1 → a ∉ storedBytes 16 lf s1 → exec (.jsb f d) s = .next t →
      a ≠ t.sp.toNat → a ≠ (t.sp + 1).toNat → t.mem.readByte a = s.mem.readByte a)

/-! ### Invariants and stops -/

/-- The stuck bits stay stuck, memory stays canonical and no instruction is left in progress (log 7), by every step from
every state where this holds (10_state.md R26, R27, R28, R32; log 26); and no step changes the configuration
(00_scope.md R6). -/
def Obligations.StepKeepsInvariant : Prop :=
  ∀ s t : State, step s = .next t → (s.Inv → t.Inv) ∧ t.cfg = s.cfg

/-- The invariant holds right after reset (10_state.md R43), with the blank memory and the empty note of stores that the
model chose (logs 26 and 7). -/
def Obligations.ResetMeetsInvariant : Prop := State.reset.Inv

/-- No state makes a step fault: every chain of entries ends in a handler or, with the system stack exhausted, in HALT
(60_exceptions.md R452, R453; the spec's decisions D15 and D17, logs 12 and 14; the bound is the model's: log 14); and a
machine without read-only memory always has a next state. -/
def Obligations.StepNeverFaults : Prop :=
  (∀ (s : State) (e : Fault), step s ≠ .fault e) ∧ (∀ s : State, s.noRom = true → ∃ t, step s = .next t)

/-- Right after reset the special registers hold the values of Tabela 2.2 (10_state.md R43), with PSW and PC the words
of the reset vector, which are 0 in the blank memory the model chose (log 26); bp_armed, which is not in the table, is 0
by the spec's decision D12 (log 9). -/
def Obligations.ResetValues : Prop :=
  State.reset.sps = 0xF800 ∧ State.reset.sp = 0xF700 ∧ State.reset.lp = 0xF600 ∧ State.reset.imk = 0 ∧
  State.reset.run = .halt ∧ State.reset.bpArmed = false ∧
  State.reset.psw = State.reset.mem.read true 0xFF80 ∧
  State.reset.pc = State.reset.mem.read true 0xFF82 &&& 0xFFFE
end

