-- ==== Sys2Proof/Laws/Memory.lean ====
section
/-! SUPPORT. Every memory operation keeps the canonical form, and what it means for reading (20_memory.md R70 to R73).
-/

namespace Sys2Proof.Machine

/-- A memory that is canonical from an address on is canonical from any lower one. -/
theorem wfFrom_mono {lo hi : Nat} (h : lo ≤ hi) : ∀ {m : Memory}, Memory.wfFrom hi m = true → Memory.wfFrom lo m = true
  | [], _ => rfl
  | (a, v) :: rest, hm => by
    simp only [Memory.wfFrom, Bool.and_eq_true, decide_eq_true_eq] at hm ⊢
    exact ⟨⟨⟨h.trans hm.1.1.1, hm.1.1.2⟩, hm.1.2⟩, hm.2⟩

/-- Storing a byte keeps the canonical form. -/
theorem wfFrom_writeByte {x : Byte} {a : Nat} (ha : a < 65536) :
    ∀ {m : Memory} {lo : Nat}, lo ≤ a → Memory.wfFrom lo m = true → Memory.wfFrom lo (m.writeByte a x) = true
  | [], lo, hlo, _ => by
    by_cases hx : x = 0#8 <;> simp [Memory.writeByte, Memory.wfFrom, hx, hlo, ha]
  | (b, v) :: rest, lo, hlo, hm => by
    have hm' := hm
    simp only [Memory.wfFrom, Bool.and_eq_true, decide_eq_true_eq] at hm
    obtain ⟨⟨⟨hb, hb'⟩, hv⟩, hr⟩ := hm
    unfold Memory.writeByte
    by_cases hab : a < b
    · by_cases hx : x = 0#8
      · simpa [hab, hx] using hm'
      · have hb1 : a + 1 ≤ b := hab
        simp [hab, hx, Memory.wfFrom, hlo, ha, hb1, hb', hv, hr]
    · by_cases hba : b = a
      · by_cases hx : x = 0#8
        · subst hba; simpa [hx] using wfFrom_mono (Nat.le_succ_of_le hb) hr
        · subst hba; simp [hx, Memory.wfFrom, hb, hb', hr]
      · have hlt : b + 1 ≤ a := by omega
        have ih := wfFrom_writeByte (x := x) ha hlt hr
        simp [hab, hba, Memory.wfFrom, hb, hb', hv, ih]

/-- `writeByte` keeps the canonical form. -/
theorem wf_writeByte {m : Memory} {a : Nat} {x : Byte} (ha : a < 65536) (hm : m.wf = true) :
    (m.writeByte a x).wf = true := wfFrom_writeByte ha (Nat.zero_le a) hm

/-- `write` keeps the canonical form. -/
theorem wf_write {m : Memory} {wide : Bool} {pa v : Word} (hm : m.wf = true) : (m.write wide pa v).wf = true := by
  unfold Memory.write
  split
  · exact wf_writeByte (pa + 1).isLt (wf_writeByte pa.isLt hm)
  · exact wf_writeByte pa.isLt hm

/-- `writeCells` keeps the canonical form. -/
theorem wf_writeCells (ok : Nat → Bool) : ∀ (cells : List Host.Cell) {m : Memory}, m.wf = true →
    (m.writeCells ok cells).wf = true
  | [], _, hm => hm
  | (a, v) :: rest, m, hm => by
    unfold Memory.writeCells
    apply wf_writeCells ok rest
    split
    · exact wf_writeByte (Nat.mod_lt a (by decide)) hm
    · exact hm

/-- The memory after reset is canonical. -/
theorem reset_mem_wf : State.reset.mem.wf = true := rfl

/-- Below its first address a canonical memory reads as zero. -/
theorem readByte_of_lt {a : Nat} : ∀ {m : Memory} {lo : Nat}, Memory.wfFrom lo m = true → a < lo → m.readByte a = 0#8
  | [], _, _, _ => rfl
  | (b, v) :: rest, lo, hm, h => by
    simp only [Memory.wfFrom, Bool.and_eq_true, decide_eq_true_eq] at hm
    have hba : b ≠ a := by omega
    simp only [Memory.readByte, hba, if_false]
    exact readByte_of_lt hm.2 (by omega)

end Sys2Proof.Machine
end

