-- ==== Sys2Proof/Laws/State.lean ====
section
/-! SUPPORT. One lemma per field of the state and named update, so that no proof unfolds a record update. -/

namespace Sys2Proof.Machine

@[simp] theorem setSp_ra (s : State) (v : Word) : (s.setSp v).ra = s.ra := rfl
@[simp] theorem setSp_rb (s : State) (v : Word) : (s.setSp v).rb = s.rb := rfl
@[simp] theorem setSp_rc (s : State) (v : Word) : (s.setSp v).rc = s.rc := rfl
@[simp] theorem setSp_rd (s : State) (v : Word) : (s.setSp v).rd = s.rd := rfl
@[simp] theorem setSp_re (s : State) (v : Word) : (s.setSp v).re = s.re := rfl
@[simp] theorem setSp_rf (s : State) (v : Word) : (s.setSp v).rf = s.rf := rfl
@[simp] theorem setSp_sp (s : State) (v : Word) : (s.setSp v).sp = v &&& 0xFFFE := rfl
@[simp] theorem setSp_pc (s : State) (v : Word) : (s.setSp v).pc = s.pc := rfl
@[simp] theorem setSp_sps (s : State) (v : Word) : (s.setSp v).sps = s.sps := rfl
@[simp] theorem setSp_lp (s : State) (v : Word) : (s.setSp v).lp = s.lp := rfl
@[simp] theorem setSp_imk (s : State) (v : Word) : (s.setSp v).imk = s.imk := rfl
@[simp] theorem setSp_psw (s : State) (v : Word) : (s.setSp v).psw = s.psw := rfl
@[simp] theorem setSp_run (s : State) (v : Word) : (s.setSp v).run = s.run := rfl
@[simp] theorem setSp_m (s : State) (v : Word) : (s.setSp v).m = s.m := rfl
@[simp] theorem setSp_mf (s : State) (v : Word) : (s.setSp v).mf = s.mf := rfl
@[simp] theorem setSp_bpArmed (s : State) (v : Word) : (s.setSp v).bpArmed = s.bpArmed := rfl
@[simp] theorem setSp_mem (s : State) (v : Word) : (s.setSp v).mem = s.mem := rfl
@[simp] theorem setSp_cfg (s : State) (v : Word) : (s.setSp v).cfg = s.cfg := rfl
@[simp] theorem setSp_inp (s : State) (v : Word) : (s.setSp v).inp = s.inp := rfl
@[simp] theorem setSp_script (s : State) (v : Word) : (s.setSp v).script = s.script := rfl
@[simp] theorem setSp_admp (s : State) (v : Word) : (s.setSp v).admp = s.admp := rfl
@[simp] theorem setSp_stale (s : State) (v : Word) : (s.setSp v).stale = s.stale := rfl
@[simp] theorem setSp_stored (s : State) (v : Word) : (s.setSp v).stored = s.stored := rfl
@[simp] theorem setSp_noBase (s : State) (v : Word) : (s.setSp v).noBase = s.noBase := rfl
@[simp] theorem setSp_events (s : State) (v : Word) : (s.setSp v).events = s.events := rfl
@[simp] theorem setSp_freeCount (s : State) (v : Word) : (s.setSp v).freeCount = s.freeCount := rfl
@[simp] theorem setSps_ra (s : State) (v : Word) : (s.setSps v).ra = s.ra := rfl
@[simp] theorem setSps_rb (s : State) (v : Word) : (s.setSps v).rb = s.rb := rfl
@[simp] theorem setSps_rc (s : State) (v : Word) : (s.setSps v).rc = s.rc := rfl
@[simp] theorem setSps_rd (s : State) (v : Word) : (s.setSps v).rd = s.rd := rfl
@[simp] theorem setSps_re (s : State) (v : Word) : (s.setSps v).re = s.re := rfl
@[simp] theorem setSps_rf (s : State) (v : Word) : (s.setSps v).rf = s.rf := rfl
@[simp] theorem setSps_sp (s : State) (v : Word) : (s.setSps v).sp = s.sp := rfl
@[simp] theorem setSps_pc (s : State) (v : Word) : (s.setSps v).pc = s.pc := rfl
@[simp] theorem setSps_sps (s : State) (v : Word) : (s.setSps v).sps = v &&& 0xFFFE := rfl
@[simp] theorem setSps_lp (s : State) (v : Word) : (s.setSps v).lp = s.lp := rfl
@[simp] theorem setSps_imk (s : State) (v : Word) : (s.setSps v).imk = s.imk := rfl
@[simp] theorem setSps_psw (s : State) (v : Word) : (s.setSps v).psw = s.psw := rfl
@[simp] theorem setSps_run (s : State) (v : Word) : (s.setSps v).run = s.run := rfl
@[simp] theorem setSps_m (s : State) (v : Word) : (s.setSps v).m = s.m := rfl
@[simp] theorem setSps_mf (s : State) (v : Word) : (s.setSps v).mf = s.mf := rfl
@[simp] theorem setSps_bpArmed (s : State) (v : Word) : (s.setSps v).bpArmed = s.bpArmed := rfl
@[simp] theorem setSps_mem (s : State) (v : Word) : (s.setSps v).mem = s.mem := rfl
@[simp] theorem setSps_cfg (s : State) (v : Word) : (s.setSps v).cfg = s.cfg := rfl
@[simp] theorem setSps_inp (s : State) (v : Word) : (s.setSps v).inp = s.inp := rfl
@[simp] theorem setSps_script (s : State) (v : Word) : (s.setSps v).script = s.script := rfl
@[simp] theorem setSps_admp (s : State) (v : Word) : (s.setSps v).admp = s.admp := rfl
@[simp] theorem setSps_stale (s : State) (v : Word) : (s.setSps v).stale = s.stale := rfl
@[simp] theorem setSps_stored (s : State) (v : Word) : (s.setSps v).stored = s.stored := rfl
@[simp] theorem setSps_noBase (s : State) (v : Word) : (s.setSps v).noBase = s.noBase := rfl
@[simp] theorem setSps_events (s : State) (v : Word) : (s.setSps v).events = s.events := rfl
@[simp] theorem setSps_freeCount (s : State) (v : Word) : (s.setSps v).freeCount = s.freeCount := rfl
@[simp] theorem setPc_ra (s : State) (v : Word) : (s.setPc v).ra = s.ra := rfl
@[simp] theorem setPc_rb (s : State) (v : Word) : (s.setPc v).rb = s.rb := rfl
@[simp] theorem setPc_rc (s : State) (v : Word) : (s.setPc v).rc = s.rc := rfl
@[simp] theorem setPc_rd (s : State) (v : Word) : (s.setPc v).rd = s.rd := rfl
@[simp] theorem setPc_re (s : State) (v : Word) : (s.setPc v).re = s.re := rfl
@[simp] theorem setPc_rf (s : State) (v : Word) : (s.setPc v).rf = s.rf := rfl
@[simp] theorem setPc_sp (s : State) (v : Word) : (s.setPc v).sp = s.sp := rfl
@[simp] theorem setPc_pc (s : State) (v : Word) : (s.setPc v).pc = v &&& 0xFFFE := rfl
@[simp] theorem setPc_sps (s : State) (v : Word) : (s.setPc v).sps = s.sps := rfl
@[simp] theorem setPc_lp (s : State) (v : Word) : (s.setPc v).lp = s.lp := rfl
@[simp] theorem setPc_imk (s : State) (v : Word) : (s.setPc v).imk = s.imk := rfl
@[simp] theorem setPc_psw (s : State) (v : Word) : (s.setPc v).psw = s.psw := rfl
@[simp] theorem setPc_run (s : State) (v : Word) : (s.setPc v).run = s.run := rfl
@[simp] theorem setPc_m (s : State) (v : Word) : (s.setPc v).m = s.m := rfl
@[simp] theorem setPc_mf (s : State) (v : Word) : (s.setPc v).mf = s.mf := rfl
@[simp] theorem setPc_bpArmed (s : State) (v : Word) : (s.setPc v).bpArmed = s.bpArmed := rfl
@[simp] theorem setPc_mem (s : State) (v : Word) : (s.setPc v).mem = s.mem := rfl
@[simp] theorem setPc_cfg (s : State) (v : Word) : (s.setPc v).cfg = s.cfg := rfl
@[simp] theorem setPc_inp (s : State) (v : Word) : (s.setPc v).inp = s.inp := rfl
@[simp] theorem setPc_script (s : State) (v : Word) : (s.setPc v).script = s.script := rfl
@[simp] theorem setPc_admp (s : State) (v : Word) : (s.setPc v).admp = s.admp := rfl
@[simp] theorem setPc_stale (s : State) (v : Word) : (s.setPc v).stale = s.stale := rfl
@[simp] theorem setPc_stored (s : State) (v : Word) : (s.setPc v).stored = s.stored := rfl
@[simp] theorem setPc_noBase (s : State) (v : Word) : (s.setPc v).noBase = s.noBase := rfl
@[simp] theorem setPc_events (s : State) (v : Word) : (s.setPc v).events = s.events := rfl
@[simp] theorem setPc_freeCount (s : State) (v : Word) : (s.setPc v).freeCount = s.freeCount := rfl
@[simp] theorem setLp_ra (s : State) (v : Word) : (s.setLp v).ra = s.ra := rfl
@[simp] theorem setLp_rb (s : State) (v : Word) : (s.setLp v).rb = s.rb := rfl
@[simp] theorem setLp_rc (s : State) (v : Word) : (s.setLp v).rc = s.rc := rfl
@[simp] theorem setLp_rd (s : State) (v : Word) : (s.setLp v).rd = s.rd := rfl
@[simp] theorem setLp_re (s : State) (v : Word) : (s.setLp v).re = s.re := rfl
@[simp] theorem setLp_rf (s : State) (v : Word) : (s.setLp v).rf = s.rf := rfl
@[simp] theorem setLp_sp (s : State) (v : Word) : (s.setLp v).sp = s.sp := rfl
@[simp] theorem setLp_pc (s : State) (v : Word) : (s.setLp v).pc = s.pc := rfl
@[simp] theorem setLp_sps (s : State) (v : Word) : (s.setLp v).sps = s.sps := rfl
@[simp] theorem setLp_lp (s : State) (v : Word) : (s.setLp v).lp = v := rfl
@[simp] theorem setLp_imk (s : State) (v : Word) : (s.setLp v).imk = s.imk := rfl
@[simp] theorem setLp_psw (s : State) (v : Word) : (s.setLp v).psw = s.psw := rfl
@[simp] theorem setLp_run (s : State) (v : Word) : (s.setLp v).run = s.run := rfl
@[simp] theorem setLp_m (s : State) (v : Word) : (s.setLp v).m = s.m := rfl
@[simp] theorem setLp_mf (s : State) (v : Word) : (s.setLp v).mf = s.mf := rfl
@[simp] theorem setLp_bpArmed (s : State) (v : Word) : (s.setLp v).bpArmed = s.bpArmed := rfl
@[simp] theorem setLp_mem (s : State) (v : Word) : (s.setLp v).mem = s.mem := rfl
@[simp] theorem setLp_cfg (s : State) (v : Word) : (s.setLp v).cfg = s.cfg := rfl
@[simp] theorem setLp_inp (s : State) (v : Word) : (s.setLp v).inp = s.inp := rfl
@[simp] theorem setLp_script (s : State) (v : Word) : (s.setLp v).script = s.script := rfl
@[simp] theorem setLp_admp (s : State) (v : Word) : (s.setLp v).admp = s.admp := rfl
@[simp] theorem setLp_stale (s : State) (v : Word) : (s.setLp v).stale = s.stale := rfl
@[simp] theorem setLp_stored (s : State) (v : Word) : (s.setLp v).stored = s.stored := rfl
@[simp] theorem setLp_noBase (s : State) (v : Word) : (s.setLp v).noBase = s.noBase := rfl
@[simp] theorem setLp_events (s : State) (v : Word) : (s.setLp v).events = s.events := rfl
@[simp] theorem setLp_freeCount (s : State) (v : Word) : (s.setLp v).freeCount = s.freeCount := rfl
@[simp] theorem setMk_ra (s : State) (v : Word) : (s.setMk v).ra = s.ra := rfl
@[simp] theorem setMk_rb (s : State) (v : Word) : (s.setMk v).rb = s.rb := rfl
@[simp] theorem setMk_rc (s : State) (v : Word) : (s.setMk v).rc = s.rc := rfl
@[simp] theorem setMk_rd (s : State) (v : Word) : (s.setMk v).rd = s.rd := rfl
@[simp] theorem setMk_re (s : State) (v : Word) : (s.setMk v).re = s.re := rfl
@[simp] theorem setMk_rf (s : State) (v : Word) : (s.setMk v).rf = s.rf := rfl
@[simp] theorem setMk_sp (s : State) (v : Word) : (s.setMk v).sp = s.sp := rfl
@[simp] theorem setMk_pc (s : State) (v : Word) : (s.setMk v).pc = s.pc := rfl
@[simp] theorem setMk_sps (s : State) (v : Word) : (s.setMk v).sps = s.sps := rfl
@[simp] theorem setMk_lp (s : State) (v : Word) : (s.setMk v).lp = s.lp := rfl
@[simp] theorem setMk_imk (s : State) (v : Word) : (s.setMk v).imk = v &&& 0x7FFF := rfl
@[simp] theorem setMk_psw (s : State) (v : Word) : (s.setMk v).psw = s.psw := rfl
@[simp] theorem setMk_run (s : State) (v : Word) : (s.setMk v).run = s.run := rfl
@[simp] theorem setMk_m (s : State) (v : Word) : (s.setMk v).m = s.m := rfl
@[simp] theorem setMk_mf (s : State) (v : Word) : (s.setMk v).mf = s.mf := rfl
@[simp] theorem setMk_bpArmed (s : State) (v : Word) : (s.setMk v).bpArmed = s.bpArmed := rfl
@[simp] theorem setMk_mem (s : State) (v : Word) : (s.setMk v).mem = s.mem := rfl
@[simp] theorem setMk_cfg (s : State) (v : Word) : (s.setMk v).cfg = s.cfg := rfl
@[simp] theorem setMk_inp (s : State) (v : Word) : (s.setMk v).inp = s.inp := rfl
@[simp] theorem setMk_script (s : State) (v : Word) : (s.setMk v).script = s.script := rfl
@[simp] theorem setMk_admp (s : State) (v : Word) : (s.setMk v).admp = s.admp := rfl
@[simp] theorem setMk_stale (s : State) (v : Word) : (s.setMk v).stale = s.stale := rfl
@[simp] theorem setMk_stored (s : State) (v : Word) : (s.setMk v).stored = s.stored := rfl
@[simp] theorem setMk_noBase (s : State) (v : Word) : (s.setMk v).noBase = s.noBase := rfl
@[simp] theorem setMk_events (s : State) (v : Word) : (s.setMk v).events = s.events := rfl
@[simp] theorem setMk_freeCount (s : State) (v : Word) : (s.setMk v).freeCount = s.freeCount := rfl
@[simp] theorem setPsw_ra (s : State) (v : Word) : (s.setPsw v).ra = s.ra := rfl
@[simp] theorem setPsw_rb (s : State) (v : Word) : (s.setPsw v).rb = s.rb := rfl
@[simp] theorem setPsw_rc (s : State) (v : Word) : (s.setPsw v).rc = s.rc := rfl
@[simp] theorem setPsw_rd (s : State) (v : Word) : (s.setPsw v).rd = s.rd := rfl
@[simp] theorem setPsw_re (s : State) (v : Word) : (s.setPsw v).re = s.re := rfl
@[simp] theorem setPsw_rf (s : State) (v : Word) : (s.setPsw v).rf = s.rf := rfl
@[simp] theorem setPsw_sp (s : State) (v : Word) : (s.setPsw v).sp = s.sp := rfl
@[simp] theorem setPsw_pc (s : State) (v : Word) : (s.setPsw v).pc = s.pc := rfl
@[simp] theorem setPsw_sps (s : State) (v : Word) : (s.setPsw v).sps = s.sps := rfl
@[simp] theorem setPsw_lp (s : State) (v : Word) : (s.setPsw v).lp = s.lp := rfl
@[simp] theorem setPsw_imk (s : State) (v : Word) : (s.setPsw v).imk = s.imk := rfl
@[simp] theorem setPsw_psw (s : State) (v : Word) : (s.setPsw v).psw = v := rfl
@[simp] theorem setPsw_run (s : State) (v : Word) : (s.setPsw v).run = s.run := rfl
@[simp] theorem setPsw_m (s : State) (v : Word) : (s.setPsw v).m = s.m := rfl
@[simp] theorem setPsw_mf (s : State) (v : Word) : (s.setPsw v).mf = s.mf := rfl
@[simp] theorem setPsw_bpArmed (s : State) (v : Word) : (s.setPsw v).bpArmed = s.bpArmed := rfl
@[simp] theorem setPsw_mem (s : State) (v : Word) : (s.setPsw v).mem = s.mem := rfl
@[simp] theorem setPsw_cfg (s : State) (v : Word) : (s.setPsw v).cfg = s.cfg := rfl
@[simp] theorem setPsw_inp (s : State) (v : Word) : (s.setPsw v).inp = s.inp := rfl
@[simp] theorem setPsw_script (s : State) (v : Word) : (s.setPsw v).script = s.script := rfl
@[simp] theorem setPsw_admp (s : State) (v : Word) : (s.setPsw v).admp = s.admp := rfl
@[simp] theorem setPsw_stale (s : State) (v : Word) : (s.setPsw v).stale = s.stale := rfl
@[simp] theorem setPsw_stored (s : State) (v : Word) : (s.setPsw v).stored = s.stored := rfl
@[simp] theorem setPsw_noBase (s : State) (v : Word) : (s.setPsw v).noBase = s.noBase := rfl
@[simp] theorem setPsw_events (s : State) (v : Word) : (s.setPsw v).events = s.events := rfl
@[simp] theorem setPsw_freeCount (s : State) (v : Word) : (s.setPsw v).freeCount = s.freeCount := rfl
@[simp] theorem setG_sp (s : State) (r : GReg) (v : Word) : (s.setG r v).sp = s.sp := by cases r <;> rfl
@[simp] theorem setG_pc (s : State) (r : GReg) (v : Word) : (s.setG r v).pc = s.pc := by cases r <;> rfl
@[simp] theorem setG_sps (s : State) (r : GReg) (v : Word) : (s.setG r v).sps = s.sps := by cases r <;> rfl
@[simp] theorem setG_lp (s : State) (r : GReg) (v : Word) : (s.setG r v).lp = s.lp := by cases r <;> rfl
@[simp] theorem setG_imk (s : State) (r : GReg) (v : Word) : (s.setG r v).imk = s.imk := by cases r <;> rfl
@[simp] theorem setG_psw (s : State) (r : GReg) (v : Word) : (s.setG r v).psw = s.psw := by cases r <;> rfl
@[simp] theorem setG_run (s : State) (r : GReg) (v : Word) : (s.setG r v).run = s.run := by cases r <;> rfl
@[simp] theorem setG_m (s : State) (r : GReg) (v : Word) : (s.setG r v).m = s.m := by cases r <;> rfl
@[simp] theorem setG_mf (s : State) (r : GReg) (v : Word) : (s.setG r v).mf = s.mf := by cases r <;> rfl
@[simp] theorem setG_bpArmed (s : State) (r : GReg) (v : Word) : (s.setG r v).bpArmed = s.bpArmed := by cases r <;> rfl
@[simp] theorem setG_mem (s : State) (r : GReg) (v : Word) : (s.setG r v).mem = s.mem := by cases r <;> rfl
@[simp] theorem setG_cfg (s : State) (r : GReg) (v : Word) : (s.setG r v).cfg = s.cfg := by cases r <;> rfl
@[simp] theorem setG_inp (s : State) (r : GReg) (v : Word) : (s.setG r v).inp = s.inp := by cases r <;> rfl
@[simp] theorem setG_script (s : State) (r : GReg) (v : Word) : (s.setG r v).script = s.script := by cases r <;> rfl
@[simp] theorem setG_admp (s : State) (r : GReg) (v : Word) : (s.setG r v).admp = s.admp := by cases r <;> rfl
@[simp] theorem setG_stale (s : State) (r : GReg) (v : Word) : (s.setG r v).stale = s.stale := by cases r <;> rfl
@[simp] theorem setG_stored (s : State) (r : GReg) (v : Word) : (s.setG r v).stored = s.stored := by cases r <;> rfl
@[simp] theorem setG_noBase (s : State) (r : GReg) (v : Word) : (s.setG r v).noBase = s.noBase := by cases r <;> rfl
@[simp] theorem setG_events (s : State) (r : GReg) (v : Word) : (s.setG r v).events = s.events := by cases r <;> rfl
@[simp] theorem setG_freeCount (s : State) (r : GReg) (v : Word) : (s.setG r v).freeCount = s.freeCount := by cases r <;> rfl
@[simp] theorem setM_ra (s : State) (k : AcReg) (v : Long) : (s.setM k v).ra = s.ra := by cases k <;> rfl
@[simp] theorem setM_rb (s : State) (k : AcReg) (v : Long) : (s.setM k v).rb = s.rb := by cases k <;> rfl
@[simp] theorem setM_rc (s : State) (k : AcReg) (v : Long) : (s.setM k v).rc = s.rc := by cases k <;> rfl
@[simp] theorem setM_rd (s : State) (k : AcReg) (v : Long) : (s.setM k v).rd = s.rd := by cases k <;> rfl
@[simp] theorem setM_re (s : State) (k : AcReg) (v : Long) : (s.setM k v).re = s.re := by cases k <;> rfl
@[simp] theorem setM_rf (s : State) (k : AcReg) (v : Long) : (s.setM k v).rf = s.rf := by cases k <;> rfl
@[simp] theorem setM_sp (s : State) (k : AcReg) (v : Long) : (s.setM k v).sp = s.sp := by cases k <;> rfl
@[simp] theorem setM_pc (s : State) (k : AcReg) (v : Long) : (s.setM k v).pc = s.pc := by cases k <;> rfl
@[simp] theorem setM_sps (s : State) (k : AcReg) (v : Long) : (s.setM k v).sps = s.sps := by cases k <;> rfl
@[simp] theorem setM_lp (s : State) (k : AcReg) (v : Long) : (s.setM k v).lp = s.lp := by cases k <;> rfl
@[simp] theorem setM_imk (s : State) (k : AcReg) (v : Long) : (s.setM k v).imk = s.imk := by cases k <;> rfl
@[simp] theorem setM_psw (s : State) (k : AcReg) (v : Long) : (s.setM k v).psw = s.psw := by cases k <;> rfl
@[simp] theorem setM_run (s : State) (k : AcReg) (v : Long) : (s.setM k v).run = s.run := by cases k <;> rfl
@[simp] theorem setM_mf (s : State) (k : AcReg) (v : Long) : (s.setM k v).mf = s.mf := by cases k <;> rfl
@[simp] theorem setM_bpArmed (s : State) (k : AcReg) (v : Long) : (s.setM k v).bpArmed = s.bpArmed := by cases k <;> rfl
@[simp] theorem setM_mem (s : State) (k : AcReg) (v : Long) : (s.setM k v).mem = s.mem := by cases k <;> rfl
@[simp] theorem setM_cfg (s : State) (k : AcReg) (v : Long) : (s.setM k v).cfg = s.cfg := by cases k <;> rfl
@[simp] theorem setM_inp (s : State) (k : AcReg) (v : Long) : (s.setM k v).inp = s.inp := by cases k <;> rfl
@[simp] theorem setM_script (s : State) (k : AcReg) (v : Long) : (s.setM k v).script = s.script := by cases k <;> rfl
@[simp] theorem setM_admp (s : State) (k : AcReg) (v : Long) : (s.setM k v).admp = s.admp := by cases k <;> rfl
@[simp] theorem setM_stale (s : State) (k : AcReg) (v : Long) : (s.setM k v).stale = s.stale := by cases k <;> rfl
@[simp] theorem setM_stored (s : State) (k : AcReg) (v : Long) : (s.setM k v).stored = s.stored := by cases k <;> rfl
@[simp] theorem setM_noBase (s : State) (k : AcReg) (v : Long) : (s.setM k v).noBase = s.noBase := by cases k <;> rfl
@[simp] theorem setM_events (s : State) (k : AcReg) (v : Long) : (s.setM k v).events = s.events := by cases k <;> rfl
@[simp] theorem setM_freeCount (s : State) (k : AcReg) (v : Long) : (s.setM k v).freeCount = s.freeCount := by cases k <;> rfl
@[simp] theorem setSp_getG (s : State) (v : Word) (r : GReg) : (s.setSp v).getG r = s.getG r := by cases r <;> rfl
@[simp] theorem setSp_getM (s : State) (v : Word) (k : AcReg) : (s.setSp v).getM k = s.getM k := by cases k <;> rfl
@[simp] theorem setSps_getG (s : State) (v : Word) (r : GReg) : (s.setSps v).getG r = s.getG r := by cases r <;> rfl
@[simp] theorem setSps_getM (s : State) (v : Word) (k : AcReg) : (s.setSps v).getM k = s.getM k := by cases k <;> rfl
@[simp] theorem setPc_getG (s : State) (v : Word) (r : GReg) : (s.setPc v).getG r = s.getG r := by cases r <;> rfl
@[simp] theorem setPc_getM (s : State) (v : Word) (k : AcReg) : (s.setPc v).getM k = s.getM k := by cases k <;> rfl
@[simp] theorem setLp_getG (s : State) (v : Word) (r : GReg) : (s.setLp v).getG r = s.getG r := by cases r <;> rfl
@[simp] theorem setLp_getM (s : State) (v : Word) (k : AcReg) : (s.setLp v).getM k = s.getM k := by cases k <;> rfl
@[simp] theorem setMk_getG (s : State) (v : Word) (r : GReg) : (s.setMk v).getG r = s.getG r := by cases r <;> rfl
@[simp] theorem setMk_getM (s : State) (v : Word) (k : AcReg) : (s.setMk v).getM k = s.getM k := by cases k <;> rfl
@[simp] theorem setPsw_getG (s : State) (v : Word) (r : GReg) : (s.setPsw v).getG r = s.getG r := by cases r <;> rfl
@[simp] theorem setPsw_getM (s : State) (v : Word) (k : AcReg) : (s.setPsw v).getM k = s.getM k := by cases k <;> rfl
@[simp] theorem setM_getG (s : State) (k : AcReg) (v : Long) (r : GReg) : (s.setM k v).getG r = s.getG r := by cases k <;> cases r <;> rfl
@[simp] theorem setG_getM (s : State) (r : GReg) (v : Word) (k : AcReg) : (s.setG r v).getM k = s.getM k := by cases r <;> cases k <;> rfl

/-- Reading the register just written. -/
@[simp] theorem setG_getG_same (s : State) (r : GReg) (v : Word) : (s.setG r v).getG r = v := by cases r <;> rfl

/-- Reading another register than the one written. -/
theorem setG_getG_other (s : State) (r q : GReg) (v : Word) (h : q ≠ r) : (s.setG r v).getG q = s.getG q := by
  cases r <;> cases q <;> first | rfl | exact absurd rfl h

/-- Reading the ASTROM register just written. -/
@[simp] theorem setM_getM_same (s : State) (k : AcReg) (v : Long) : (s.setM k v).getM k = v := by cases k <;> rfl

/-- Reading another ASTROM register than the one written. -/
theorem setM_getM_other (s : State) (k j : AcReg) (v : Long) (h : j ≠ k) : (s.setM k v).getM j = s.getM j := by
  cases k <;> cases j <;> first | rfl | exact absurd rfl h

/-! ### A store -/

@[simp] theorem store_ra (s : State) (own wide : Bool) (pa v : Word) : (s.store own wide pa v).ra = s.ra := rfl
@[simp] theorem store_rb (s : State) (own wide : Bool) (pa v : Word) : (s.store own wide pa v).rb = s.rb := rfl
@[simp] theorem store_rc (s : State) (own wide : Bool) (pa v : Word) : (s.store own wide pa v).rc = s.rc := rfl
@[simp] theorem store_rd (s : State) (own wide : Bool) (pa v : Word) : (s.store own wide pa v).rd = s.rd := rfl
@[simp] theorem store_re (s : State) (own wide : Bool) (pa v : Word) : (s.store own wide pa v).re = s.re := rfl
@[simp] theorem store_rf (s : State) (own wide : Bool) (pa v : Word) : (s.store own wide pa v).rf = s.rf := rfl
@[simp] theorem store_sp (s : State) (own wide : Bool) (pa v : Word) : (s.store own wide pa v).sp = s.sp := rfl
@[simp] theorem store_pc (s : State) (own wide : Bool) (pa v : Word) : (s.store own wide pa v).pc = s.pc := rfl
@[simp] theorem store_sps (s : State) (own wide : Bool) (pa v : Word) : (s.store own wide pa v).sps = s.sps := rfl
@[simp] theorem store_lp (s : State) (own wide : Bool) (pa v : Word) : (s.store own wide pa v).lp = s.lp := rfl
@[simp] theorem store_imk (s : State) (own wide : Bool) (pa v : Word) : (s.store own wide pa v).imk = s.imk := rfl
@[simp] theorem store_psw (s : State) (own wide : Bool) (pa v : Word) : (s.store own wide pa v).psw = s.psw := rfl
@[simp] theorem store_run (s : State) (own wide : Bool) (pa v : Word) : (s.store own wide pa v).run = s.run := rfl
@[simp] theorem store_m (s : State) (own wide : Bool) (pa v : Word) : (s.store own wide pa v).m = s.m := rfl
@[simp] theorem store_mf (s : State) (own wide : Bool) (pa v : Word) : (s.store own wide pa v).mf = s.mf := rfl
@[simp] theorem store_bpArmed (s : State) (own wide : Bool) (pa v : Word) : (s.store own wide pa v).bpArmed = s.bpArmed := rfl
@[simp] theorem store_cfg (s : State) (own wide : Bool) (pa v : Word) : (s.store own wide pa v).cfg = s.cfg := rfl
@[simp] theorem store_inp (s : State) (own wide : Bool) (pa v : Word) : (s.store own wide pa v).inp = s.inp := rfl
@[simp] theorem store_script (s : State) (own wide : Bool) (pa v : Word) : (s.store own wide pa v).script = s.script := rfl
@[simp] theorem store_admp (s : State) (own wide : Bool) (pa v : Word) : (s.store own wide pa v).admp = s.admp := rfl
@[simp] theorem store_stale (s : State) (own wide : Bool) (pa v : Word) : (s.store own wide pa v).stale = s.stale := rfl
@[simp] theorem store_noBase (s : State) (own wide : Bool) (pa v : Word) : (s.store own wide pa v).noBase = s.noBase := rfl
@[simp] theorem store_events (s : State) (own wide : Bool) (pa v : Word) : (s.store own wide pa v).events = s.events := rfl
@[simp] theorem store_freeCount (s : State) (own wide : Bool) (pa v : Word) : (s.store own wide pa v).freeCount = s.freeCount := rfl

@[simp] theorem store_mem (s : State) (own wide : Bool) (pa v : Word) :
    (s.store own wide pa v).mem = s.mem.write wide pa v := rfl

end Sys2Proof.Machine
end

