-- ==== Sys2Proof/Laws/Ops.lean ====
section
/-! SUPPORT. What each shared operation can do, said once: how a computation on the state takes its steps, what it
keeps, and what a bus cycle, a memory access, a stack access and an entry give. -/

namespace Sys2Proof.Machine

/-! ### Computations on the state -/

@[simp] theorem bind_apply {α β : Type} (x : M α) (f : α → M β) (s : State) :
    (x >>= f) s = match x s with
      | .ok a t => f a t
      | .error e t => .error e t := by
  show EStateM.bind x f s = _
  unfold EStateM.bind
  cases x s <;> rfl

@[simp] theorem map_apply {α β : Type} (x : M α) (f : α → β) (s : State) :
    (f <$> x) s = match x s with
      | .ok a t => .ok (f a) t
      | .error e t => .error e t := by
  show EStateM.map f x s = _
  unfold EStateM.map
  cases x s <;> rfl

@[simp] theorem pure_apply {α : Type} (a : α) (s : State) : (pure a : M α) s = .ok a s := rfl
@[simp] theorem get_apply (s : State) : (get : M State) s = .ok s s := rfl
@[simp] theorem set_apply (t s : State) : (set t : M PUnit) s = .ok ⟨⟩ t := rfl
@[simp] theorem modify_apply (f : State → State) (s : State) : (modify f : M PUnit) s = .ok ⟨⟩ (f s) := rfl
@[simp] theorem throw_apply {α : Type} (e : Abort) (s : State) : (throw e : M α) s = .error e s := rfl

/-- A sequence ends when both its parts do. -/
theorem bind_ok {α β : Type} {x : M α} {f : α → M β} {s t : State} {b : β} :
    (x >>= f) s = .ok b t ↔ ∃ a u, x s = .ok a u ∧ f a u = .ok b t := by
  rw [bind_apply]
  cases x s <;> simp

/-- A sequence is abandoned in its first or in its second part. -/
theorem bind_error {α β : Type} {x : M α} {f : α → M β} {s t : State} {e : Abort} :
    (x >>= f) s = .error e t ↔ x s = .error e t ∨ ∃ a u, x s = .ok a u ∧ f a u = .error e t := by
  rw [bind_apply]
  cases x s <;> simp

/-- `raiseIf` raises its trap and changes nothing, or does nothing. -/
theorem raiseIf_apply (b : Bool) (t : Trap) (s : State) :
    raiseIf b t s = if b then .error (.trap t) s else .ok () s := by cases b <;> rfl

/-- `haltIf` stops and changes nothing, or does nothing. -/
theorem haltIf_apply (b : Bool) (s : State) : haltIf b s = if b then .error .halt s else .ok () s := by
  cases b <;> rfl

/-- `doIf` is its action or nothing. -/
theorem doIf_apply (b : Bool) (x : M Unit) (s : State) : doIf b x s = if b then x s else .ok () s := by
  cases b <;> rfl

/-! ### What a computation keeps -/

/-- Whatever `x` answers on `s`, the state it leaves is related to `s`. -/
def KeepsAt {α : Type} (R : State → State → Prop) (x : M α) (s : State) : Prop :=
  match x s with
  | .ok _ t => R s t
  | .error _ t => R s t

/-- Whatever `x` answers, the state it leaves is related to the one it found. -/
def Keeps {α : Type} (R : State → State → Prop) (x : M α) : Prop := ∀ s, KeepsAt R x s

/-- A relation that a sequence keeps when its parts do. -/
structure Frame (R : State → State → Prop) : Prop where
  refl : ∀ s, R s s
  trans : ∀ {s t u}, R s t → R t u → R s u

theorem keepsAt_ok {α : Type} {R : State → State → Prop} {x : M α} {s t : State} {a : α} (h : KeepsAt R x s)
    (hx : x s = .ok a t) : R s t := by unfold KeepsAt at h; rwa [hx] at h

theorem keepsAt_error {α : Type} {R : State → State → Prop} {x : M α} {s t : State} {e : Abort} (h : KeepsAt R x s)
    (hx : x s = .error e t) : R s t := by unfold KeepsAt at h; rwa [hx] at h

theorem keeps_pure {α : Type} {R : State → State → Prop} (hR : Frame R) (a : α) : Keeps R (pure a : M α) := hR.refl

theorem keeps_get {R : State → State → Prop} (hR : Frame R) : Keeps R (get : M State) := hR.refl

theorem keeps_throw {α : Type} {R : State → State → Prop} (hR : Frame R) (e : Abort) : Keeps R (throw e : M α) :=
  hR.refl

theorem keeps_modify {R : State → State → Prop} {f : State → State} (h : ∀ s, R s (f s)) :
    Keeps R (modify f : M PUnit) := h

theorem keepsAt_set {R : State → State → Prop} {s t : State} (h : R s t) : KeepsAt R (set t : M PUnit) s := h

theorem keepsAt_bind {α β : Type} {R : State → State → Prop} (hR : Frame R) {x : M α} {f : α → M β} {s : State}
    (hx : KeepsAt R x s) (hf : ∀ a t, x s = .ok a t → KeepsAt R (f a) t) : KeepsAt R (x >>= f) s := by
  unfold KeepsAt at hx ⊢
  rw [bind_apply]
  cases e : x s with
  | error _ t => rw [e] at hx; exact hx
  | ok a t =>
    rw [e] at hx
    have h2 := hf a t e
    unfold KeepsAt at h2
    dsimp only
    revert h2
    cases f a t <;> exact hR.trans hx

theorem keeps_bind {α β : Type} {R : State → State → Prop} (hR : Frame R) {x : M α} {f : α → M β}
    (hx : Keeps R x) (hf : ∀ a, Keeps R (f a)) : Keeps R (x >>= f) :=
  fun s => keepsAt_bind hR (hx s) (fun a t _ => hf a t)

/-- After `get`, the rest is run on the state that was got. -/
theorem keeps_get_bind {β : Type} {R : State → State → Prop} {f : State → M β} (h : ∀ s, KeepsAt R (f s) s) :
    Keeps R (get >>= f) := h

theorem keeps_raiseIf {R : State → State → Prop} (hR : Frame R) (b : Bool) (t : Trap) : Keeps R (raiseIf b t) := by
  cases b
  · exact keeps_pure hR ()
  · exact keeps_throw hR _

theorem keeps_haltIf {R : State → State → Prop} (hR : Frame R) (b : Bool) : Keeps R (haltIf b) := by
  cases b
  · exact keeps_pure hR ()
  · exact keeps_throw hR _

theorem keeps_doIf {R : State → State → Prop} (hR : Frame R) (b : Bool) {x : M Unit} (hx : Keeps R x) :
    Keeps R (doIf b x) := by
  cases b
  · exact keeps_pure hR ()
  · exact hx

theorem keeps_haltOnTrap {α : Type} {R : State → State → Prop} {x : M α} (hx : Keeps R x) :
    Keeps R (haltOnTrap x) := by
  intro s
  have h := hx s
  unfold KeepsAt haltOnTrap at *
  cases e : x s with
  | ok a t => rw [e] at h; exact h
  | error a t => rw [e] at h; cases a <;> exact h

/-- A relation that follows from one that is kept is kept. -/
theorem keeps_imp {α : Type} {R Q : State → State → Prop} (h : ∀ s t, R s t → Q s t) {x : M α} (hx : Keeps R x) :
    Keeps Q x := by
  intro s
  have := hx s
  unfold KeepsAt at *
  revert this
  cases x s <;> exact h _ _

/-! ### The bus -/

/-- A bus cycle changes memory, what is noted of the stores, the ADMP edits to come, the events and the count of free
values, nothing else; memory stays canonical. -/
structure BusOnly (s t : State) : Prop where
  same : t = { s with
    mem := t.mem, stored := t.stored, admp := t.admp, events := t.events, freeCount := t.freeCount }
  wf : s.mem.wf = true → t.mem.wf = true

theorem busOnly_frame : Frame BusOnly where
  refl _ := ⟨rfl, id⟩
  trans {s t u} h1 h2 := ⟨by rw [h2.same, h1.same], fun h => h2.wf (h1.wf h)⟩

theorem admpTick_busOnly : Keeps BusOnly admpTick := by
  apply keeps_modify
  intro s
  cases h : s.admp with
  | nil => exact busOnly_frame.refl s
  | cons e rest => exact ⟨rfl, fun hw => wf_writeCells _ e hw⟩

/-- A tick with nothing to come does nothing. -/
theorem admpTick_none {s : State} (h : s.admp = []) : admpTick s = .ok () s := by
  simp [admpTick, h]

/-- A read cycle changes nothing but what a bus cycle may. -/
theorem busRead_busOnly (wide : Bool) (pa : Word) : Keeps BusOnly (busRead wide pa) := by
  refine keeps_bind busOnly_frame admpTick_busOnly (fun _ => keeps_get_bind fun s => ?_)
  cases Config.answers s.cfg false wide pa with
  | none => exact keeps_throw busOnly_frame _ s
  | some k =>
    cases k
    · exact keeps_bind busOnly_frame (keeps_raiseIf busOnly_frame _ _) (fun _ => keeps_pure busOnly_frame _) s
    · exact keeps_bind busOnly_frame (keeps_raiseIf busOnly_frame _ _) (fun _ => keeps_pure busOnly_frame _) s
    · exact keepsAt_bind busOnly_frame (keepsAt_set ⟨rfl, id⟩) (fun _ t _ =>
        keeps_bind busOnly_frame (keeps_raiseIf busOnly_frame _ _) (fun _ => keeps_pure busOnly_frame _) t)

/-- A write cycle changes nothing but what a bus cycle may. -/
theorem busWrite_busOnly (own wide : Bool) (pa v : Word) : Keeps BusOnly (busWrite own wide pa v) := by
  refine keeps_bind busOnly_frame admpTick_busOnly (fun _ => keeps_get_bind fun s => ?_)
  cases Config.answers s.cfg true wide pa with
  | none => exact keeps_throw busOnly_frame _ s
  | some k =>
    cases k
    · exact keepsAt_set ⟨rfl, wf_write⟩
    · exact keeps_throw busOnly_frame _ s
    · exact keepsAt_set ⟨rfl, id⟩

/-- Where every slave answers every access, what answers is what `MEM_MAP` has there (20_memory.md R82). -/
theorem answers_calm {s : State} (h : s.calm) (write wide : Bool) (pa : Word) :
    Config.answers s.cfg write wide pa = Config.slaveAt s.cfg pa.toNat := by
  cases write <;> simp [Config.answers, h.no_silent_read, h.no_silent_write]

/-- With an undisturbed bus a word or byte of plain memory is read and nothing changes (20_memory.md R85). -/
theorem busRead_memory {s : State} {wide : Bool} {pa : Word} (hc : s.calm) (hm : s.memoryAt pa = true) :
    busRead wide pa s = .ok (s.mem.read wide pa) s := by
  unfold busRead
  rw [bind_apply, admpTick_none hc.no_admp]
  simp only [State.memoryAt, Bool.or_eq_true, beq_iff_eq] at hm
  rcases hm with h | h <;> simp [answers_calm hc, h, Config.parityError, hc.no_parity, raiseIf_apply]

/-- With an undisturbed bus a write to RAM stores and does nothing else (20_memory.md R85). -/
theorem busWrite_ram {s : State} {own wide : Bool} {pa v : Word} (hc : s.calm) (hm : s.ramAt pa = true) :
    busWrite own wide pa v s = .ok () (s.store own wide pa v) := by
  unfold busWrite
  rw [bind_apply, admpTick_none hc.no_admp]
  simp only [State.ramAt, beq_iff_eq] at hm
  simp [answers_calm hc, hm]

/-- An access that nothing answers ends in the timeout trap (20_memory.md R82). -/
theorem busRead_absent {s : State} {wide : Bool} {pa : Word} (ha : s.admp = [])
    (hm : Config.answers s.cfg false wide pa = none) : busRead wide pa s = .error (.trap .busTimeout) s := by
  unfold busRead
  rw [bind_apply, admpTick_none ha]
  simp [hm]

/-! ### Program-space accesses -/

theorem memRead_busOnly (wide : Bool) (a : Word) : Keeps BusOnly (memRead wide a) :=
  keeps_bind busOnly_frame (keeps_raiseIf busOnly_frame _ _) (fun _ => keeps_get_bind fun s => busRead_busOnly _ _ s)

theorem memWrite_busOnly (wide : Bool) (a v : Word) : Keeps BusOnly (memWrite wide a v) :=
  keeps_bind busOnly_frame (keeps_raiseIf busOnly_frame _ _) (fun _ => keeps_get_bind fun s => busWrite_busOnly _ _ _ _ s)

theorem streamWrite_busOnly (wide : Bool) (a v : Word) : Keeps BusOnly (streamWrite wide a v) :=
  keeps_bind busOnly_frame (keeps_raiseIf busOnly_frame _ _) (fun _ => keeps_get_bind fun s => busWrite_busOnly _ _ _ _ s)

theorem prefetched_busOnly (wide : Bool) (pa v : Word) : Keeps BusOnly (prefetched wide pa v) := by
  refine keeps_get_bind fun s => ?_
  split
  · exact keepsAt_bind busOnly_frame (keepsAt_set ⟨rfl, id⟩) (fun _ t _ => keeps_pure busOnly_frame _ t)
  · exact keeps_pure busOnly_frame _ s

theorem streamRead_busOnly (wide : Bool) (a : Word) : Keeps BusOnly (streamRead wide a) :=
  keeps_bind busOnly_frame (keeps_raiseIf busOnly_frame _ _) (fun _ => keeps_get_bind fun s =>
    keeps_bind busOnly_frame (busRead_busOnly _ _) (fun _ => prefetched_busOnly _ _ _) s)

/-- With nothing stored to, the stream delivers what memory holds (20_memory.md R91). -/
theorem prefetched_none {s : State} {wide : Bool} {pa v : Word} (h : s.stale = []) :
    prefetched wide pa v s = .ok v s := by
  simp [prefetched, State.staleAt, h]

/-- What a fetch gives: a word of the instruction stream, and PC two further (30_encoding.md R112). -/
theorem fetch16_ok {s t : State} {w : Word} (h : fetch16 s = .ok w t) :
    ∃ u, streamRead true s.pc s = .ok w u ∧ BusOnly s u ∧ t = u.setPc (s.pc + 2) := by
  unfold fetch16 at h
  rw [bind_apply, get_apply] at h
  dsimp only at h
  obtain ⟨v, u, h1, h2⟩ := bind_ok.1 h
  have hb := keepsAt_ok (streamRead_busOnly _ _ s) h1
  simp only [bind_apply, modify_apply, pure_apply] at h2
  cases h2
  exact ⟨u, h1, hb, by rw [hb.same]⟩

/-! ### The stacks -/

theorem pstackRead_busOnly (wide : Bool) (a : Word) : Keeps BusOnly (pstackRead wide a) :=
  keeps_get_bind fun s => keeps_bind busOnly_frame (keeps_raiseIf busOnly_frame _ _) (fun _ => busRead_busOnly _ _) s

theorem pstackWrite_busOnly (wide : Bool) (a v : Word) : Keeps BusOnly (pstackWrite wide a v) :=
  keeps_get_bind fun s =>
    keeps_bind busOnly_frame (keeps_raiseIf busOnly_frame _ _) (fun _ => busWrite_busOnly _ _ _ _) s

theorem sstackRead_busOnly (a : Word) : Keeps BusOnly (sstackRead a) :=
  keeps_get_bind fun s => keeps_bind busOnly_frame (keeps_haltIf busOnly_frame _)
    (fun _ => keeps_haltOnTrap (busRead_busOnly _ _)) s

theorem sstackWrite_busOnly (own : Bool) (a v : Word) : Keeps BusOnly (sstackWrite own a v) :=
  keeps_get_bind fun s => keeps_bind busOnly_frame (keeps_haltIf busOnly_frame _)
    (fun _ => keeps_haltOnTrap (busWrite_busOnly _ _ _ _)) s

/-! ### Entries and ends -/

/-- An instruction that ends normally answers the state it leaves. -/
theorem runM_ok {x : M Unit} {s t : State} (h : x s = .ok () t) : runM x s = .next t := by
  simp [runM, h]

/-- An instruction that raises a trap answers what the entry answers. -/
theorem runM_trap {x : M Unit} {s t : State} {e : Trap} (h : x s = .error (.trap e) t) :
    runM x s = raiseInInstr e t := by
  simp [runM, h]

/-- A fault of the system stack stops the CPU. -/
theorem runM_halt {x : M Unit} {s t : State} (h : x s = .error .halt t) :
    runM x s = .next { t with run := .halt } := by
  simp [runM, h]

/-- Every way an instruction can end. -/
theorem runM_cases (x : M Unit) (s : State) :
    (∃ t, x s = .ok () t ∧ runM x s = .next t) ∨
    (∃ e t, x s = .error (.trap e) t ∧ runM x s = raiseInInstr e t) ∨
    (∃ t, x s = .error .halt t ∧ runM x s = .next { t with run := .halt }) ∨
    (∃ r t, x s = .error (.refuse r) t ∧ runM x s = .refused r) := by
  unfold runM
  cases x s with
  | ok a t => exact .inl ⟨t, rfl, rfl⟩
  | error e t =>
    cases e with
    | trap e => exact .inr (.inl ⟨e, t, rfl, rfl⟩)
    | halt => exact .inr (.inr (.inl ⟨t, rfl, rfl⟩))
    | refuse r => exact .inr (.inr (.inr ⟨r, t, rfl, rfl⟩))

/-- A sequence of results goes on from a next state only. -/
theorem andThen_next {r : Result} {f : State → Result} {t : State} :
    andThen r f = .next t ↔ ∃ u, r = .next u ∧ f u = .next t := by
  cases r <;> simp [andThen]

end Sys2Proof.Machine
end

