-- ==== Sys2Proof/Laws/Operands.lean ====
section
/-! SUPPORT. What locating, reading and writing an operand can do, and what entries and returns can do. -/

namespace Sys2Proof.Machine

/-! ### Operands -/

/-- Operand accesses change the general registers, SP, PC and what a bus cycle may, nothing else; the stuck bits and the
canonical form stay. -/
structure OperandOnly (s t : State) : Prop where
  same : t = { s with
    ra := t.ra, rb := t.rb, rc := t.rc, rd := t.rd, re := t.re, rf := t.rf, sp := t.sp, pc := t.pc
    mem := t.mem, stored := t.stored, admp := t.admp, events := t.events, freeCount := t.freeCount }
  wf : s.mem.wf = true → t.mem.wf = true
  sp_even : s.sp.getLsbD 0 = false → t.sp.getLsbD 0 = false
  pc_even : s.pc.getLsbD 0 = false → t.pc.getLsbD 0 = false

theorem operandOnly_frame : Frame OperandOnly where
  refl _ := ⟨rfl, id, id, id⟩
  trans {s t u} h1 h2 := ⟨by rw [h2.same, h1.same], fun h => h2.wf (h1.wf h), fun h => h2.sp_even (h1.sp_even h),
    fun h => h2.pc_even (h1.pc_even h)⟩

theorem operandOnly_of_bus (s t : State) (h : BusOnly s t) : OperandOnly s t :=
  ⟨by rw [h.same], h.wf, by rw [h.same]; exact id, by rw [h.same]; exact id⟩

/-- Masking with 0xFFFE clears bit 0. -/
@[simp] theorem mask_even (v : Word) : (v &&& 0xFFFE#16).getLsbD 0 = false := by simp

theorem operandOnly_setSp (s : State) (v : Word) : OperandOnly s (s.setSp v) :=
  ⟨rfl, id, fun _ => mask_even v, id⟩

theorem operandOnly_setPc (s : State) (v : Word) : OperandOnly s (s.setPc v) :=
  ⟨rfl, id, id, fun _ => mask_even v⟩

theorem operandOnly_setG (s : State) (r : GReg) (v : Word) : OperandOnly s (s.setG r v) := by
  cases r <;> exact ⟨rfl, id, id, id⟩

theorem fetch16_operandOnly : Keeps OperandOnly fetch16 :=
  keeps_get_bind fun s => keeps_bind operandOnly_frame (keeps_imp operandOnly_of_bus (streamRead_busOnly _ _))
    (fun _ => keeps_bind operandOnly_frame (keeps_modify fun s => operandOnly_setPc s _)
      (fun _ => keeps_pure operandOnly_frame _)) s

/-- A pointer read after an extension word. -/
theorem memRead_operandOnly (wide : Bool) (a : Word) : Keeps OperandOnly (memRead wide a) :=
  keeps_imp operandOnly_of_bus (memRead_busOnly _ _)

/-- Locating an operand. -/
theorem locate_operandOnly (o : Operand) : Keeps OperandOnly (locate o) := by
  have hp := fun {α : Type} (a : α) => keeps_pure operandOnly_frame a
  cases o with
  | direct r => exact hp _
  | indirect r => exact keeps_get_bind fun s => hp _ s
  | indexed r =>
    exact keeps_bind operandOnly_frame fetch16_operandOnly (fun _ => keeps_get_bind fun s => hp _ s)
  | indexedIndirect r =>
    exact keeps_bind operandOnly_frame fetch16_operandOnly (fun _ => keeps_get_bind fun s =>
      keeps_bind operandOnly_frame (memRead_operandOnly _ _) (fun _ => hp _) s)
  | spDirect => exact hp _
  | autodec =>
    exact keeps_bind operandOnly_frame (keeps_modify fun s => operandOnly_setSp s _)
      (fun _ => keeps_get_bind fun s => hp _ s)
  | autoinc =>
    exact keeps_get_bind fun s => keepsAt_bind operandOnly_frame (keepsAt_set (operandOnly_setSp s _))
      (fun _ t _ => hp _ t)
  | stackTop => exact keeps_get_bind fun s => hp _ s
  | immediate =>
    exact keeps_get_bind fun s => keepsAt_bind operandOnly_frame (keepsAt_set (operandOnly_setPc s _))
      (fun _ t _ => hp _ t)
  | absolute => exact keeps_bind operandOnly_frame fetch16_operandOnly (fun _ => hp _)
  | relative =>
    exact keeps_get_bind fun s => keeps_bind operandOnly_frame fetch16_operandOnly (fun _ => hp _) s
  | relativeIndirect =>
    exact keeps_get_bind fun s => keeps_bind operandOnly_frame fetch16_operandOnly (fun _ =>
      keeps_bind operandOnly_frame (memRead_operandOnly _ _) (fun _ => hp _)) s

/-- Reading a location is at most a bus cycle. -/
theorem readLoc_busOnly (n : Nat) (l : Loc) : Keeps BusOnly (readLoc n l) := by
  cases l with
  | reg r => exact keeps_get_bind fun s => keeps_pure busOnly_frame _ s
  | spReg => exact keeps_get_bind fun s => keeps_pure busOnly_frame _ s
  | mem a => exact keeps_bind busOnly_frame (memRead_busOnly _ _) (fun _ => keeps_pure busOnly_frame _)
  | imm a => exact keeps_bind busOnly_frame (streamRead_busOnly _ _) (fun _ => keeps_pure busOnly_frame _)
  | pstk a => exact keeps_bind busOnly_frame (pstackRead_busOnly _ _) (fun _ => keeps_pure busOnly_frame _)

/-- Writing a location. -/
theorem writeLoc_operandOnly (n : Nat) (l : Loc) (v : BitVec n) : Keeps OperandOnly (writeLoc n l v) := by
  cases l with
  | reg r => exact keeps_modify fun s => operandOnly_setG s r _
  | spReg => exact keeps_modify fun s => operandOnly_setSp s _
  | mem a => exact keeps_imp operandOnly_of_bus (memWrite_busOnly _ _ _)
  | imm a => exact keeps_imp operandOnly_of_bus (streamWrite_busOnly _ _ _)
  | pstk a => exact keeps_imp operandOnly_of_bus (pstackWrite_busOnly _ _ _)

theorem readOperand_operandOnly (n : Nat) (o : Operand) : Keeps OperandOnly (readOperand n o) :=
  keeps_bind operandOnly_frame (locate_operandOnly o) (fun l => keeps_imp operandOnly_of_bus (readLoc_busOnly n l))

theorem pushProgram_operandOnly (v : Word) : Keeps OperandOnly (pushProgram v) :=
  keeps_bind operandOnly_frame (keeps_modify fun s => operandOnly_setSp s _) (fun _ =>
    keeps_get_bind fun s => keeps_imp operandOnly_of_bus (pstackWrite_busOnly _ _ _) s)

theorem setPair_operandOnly (s : State) (p : Pair) (v : Long) : OperandOnly s (s.setPair p v) := by
  unfold State.setPair
  split <;> exact operandOnly_frame.trans (operandOnly_setG _ _ _) (operandOnly_setG _ _ _)

/-! ### Entries and returns -/

/-- Entries and returns change PC, SPS, PSW, the processor state and what a bus cycle may, nothing else. -/
structure EntryOnly (s t : State) : Prop where
  same : t = { s with
    pc := t.pc, sps := t.sps, psw := t.psw, run := t.run
    mem := t.mem, stored := t.stored, admp := t.admp, events := t.events, freeCount := t.freeCount }
  wf : s.mem.wf = true → t.mem.wf = true
  sps_even : s.sps.getLsbD 0 = false → t.sps.getLsbD 0 = false
  pc_even : s.pc.getLsbD 0 = false → t.pc.getLsbD 0 = false

theorem entryOnly_frame : Frame EntryOnly where
  refl _ := ⟨rfl, id, id, id⟩
  trans {s t u} h1 h2 := ⟨by rw [h2.same, h1.same], fun h => h2.wf (h1.wf h), fun h => h2.sps_even (h1.sps_even h),
    fun h => h2.pc_even (h1.pc_even h)⟩

theorem entryOnly_of_bus (s t : State) (h : BusOnly s t) : EntryOnly s t :=
  ⟨by rw [h.same], h.wf, by rw [h.same]; exact id, by rw [h.same]; exact id⟩

theorem entryOnly_setSps (s : State) (v : Word) : EntryOnly s (s.setSps v) :=
  ⟨rfl, id, fun _ => mask_even v, id⟩

theorem entryOnly_setPc (s : State) (v : Word) : EntryOnly s (s.setPc v) :=
  ⟨rfl, id, id, fun _ => mask_even v⟩

theorem entryOnly_setPsw (s : State) (v : Word) : EntryOnly s (s.setPsw v) := ⟨rfl, id, id, id⟩

theorem entryOnly_load (s : State) (p q : Word) : EntryOnly s ((s.setPsw p).setPc q) :=
  entryOnly_frame.trans (entryOnly_setPsw s p) (entryOnly_setPc _ q)

theorem pushSystem_entryOnly (own : Bool) (v : Word) : Keeps EntryOnly (pushSystem own v) :=
  keeps_bind entryOnly_frame (keeps_modify fun s => entryOnly_setSps s _) (fun _ =>
    keeps_get_bind fun s => keeps_imp entryOnly_of_bus (sstackWrite_busOnly _ _ _) s)

theorem popSystem_entryOnly : Keeps EntryOnly popSystem :=
  keeps_get_bind fun s => keeps_bind entryOnly_frame (keeps_imp entryOnly_of_bus (sstackRead_busOnly _))
    (fun _ => keeps_bind entryOnly_frame (keeps_modify fun s => entryOnly_setSps s _)
      (fun _ => keeps_pure entryOnly_frame _)) s

theorem vecRead_entryOnly (a : Word) : Keeps EntryOnly (vecRead a) :=
  keeps_imp entryOnly_of_bus (memRead_busOnly _ _)

/-- Taking an exception (60_exceptions.md R450). -/
theorem trapEntry_entryOnly (savedPc vec : Word) : Keeps EntryOnly (trapEntry savedPc vec) := by
  refine keeps_bind entryOnly_frame (pushSystem_entryOnly _ _) (fun _ => keeps_get_bind fun s => ?_)
  refine keeps_bind entryOnly_frame (pushSystem_entryOnly _ _) (fun _ => ?_) s
  refine keeps_bind entryOnly_frame (vecRead_entryOnly _) (fun _ => ?_)
  refine keeps_bind entryOnly_frame (vecRead_entryOnly _) (fun _ => ?_)
  exact keeps_modify fun s => ⟨rfl, id, id, fun _ => mask_even _⟩

/-- Returning from an exception (60_exceptions.md R463). -/
theorem returnEntry_entryOnly : Keeps EntryOnly returnEntry :=
  keeps_bind entryOnly_frame popSystem_entryOnly (fun _ =>
    keeps_bind entryOnly_frame (keeps_modify fun s => entryOnly_setPsw s _) (fun _ =>
      keeps_bind entryOnly_frame popSystem_entryOnly (fun _ =>
        keeps_modify fun s => entryOnly_setPc s _)))

/-- EXS (45_zero_operand.md R325). -/
theorem exchangeEntry_entryOnly : Keeps EntryOnly exchangeEntry :=
  keeps_bind entryOnly_frame popSystem_entryOnly (fun _ =>
    keeps_bind entryOnly_frame popSystem_entryOnly (fun _ => keeps_get_bind fun s =>
      keeps_bind entryOnly_frame (pushSystem_entryOnly _ _) (fun _ =>
        keeps_bind entryOnly_frame (pushSystem_entryOnly _ _) (fun _ =>
          keeps_modify fun s => entryOnly_load s _ _)) s))

end Sys2Proof.Machine
end

