-- ==== Sys2Proof/Laws/PerInstr.lean ====
section
/-! SUPPORT. One lemma per constructor of `Instr`: the core instruction of its words has the same word, the same operand
specifiers and the same well-formedness, and bit 15 of the word of a byte instruction is 0 (30_encoding.md R110, R123,
R125). -/

namespace Sys2Proof.Laws.Encoding

/-- Bit 15 of a word of Formato A is bit 5 of its operation code. -/
theorem formA_bit15 (c : Config) (hi : BitVec 6) (f d : Operand) : (formA c hi f d).getLsbD 15 = hi.getLsbD 5 := by
  refine (BitVec.getLsbD_append (x := hi ++ encodeOperand c f) (y := encodeOperand c d) (i := 15)).trans ?_
  exact (BitVec.getLsbD_append (x := hi) (y := encodeOperand c f) (i := 10)).trans (by simp)

/-- Bit 15 of a word of Formato B is bit 10 of its operation code. -/
theorem formB_bit15 (c : Config) (hi : BitVec 11) (d : Operand) : (formB c hi d).getLsbD 15 = hi.getLsbD 10 := by
  exact (BitVec.getLsbD_append (x := hi) (y := encodeOperand c d) (i := 15)).trans (by simp)

/-- What the family says of an instruction. -/
def Statement (i : Instr) : Prop :=
  ∀ c : Config, encode c i.canonical = encode c i ∧ i.canonical.shape = i.shape ∧ i.canonical.wf c = i.wf c ∧
    (i.isByte = true → (encode c i).getLsbD 15 = false)

theorem add (f d : Operand) : Statement (.add f d) :=
  fun _ => ⟨rfl, rfl, rfl, nofun⟩

theorem addb (f d : Operand) : Statement (.addb f d) :=
  fun _ => ⟨rfl, rfl, rfl, fun _ => (formA_bit15 ..).trans rfl⟩

theorem dac (f d : Operand) : Statement (.dac f d) :=
  fun _ => ⟨rfl, rfl, rfl, nofun⟩

theorem dacb (f d : Operand) : Statement (.dacb f d) :=
  fun _ => ⟨rfl, rfl, rfl, fun _ => (formA_bit15 ..).trans rfl⟩

theorem sub (f d : Operand) : Statement (.sub f d) :=
  fun _ => ⟨rfl, rfl, rfl, nofun⟩

theorem subb (f d : Operand) : Statement (.subb f d) :=
  fun _ => ⟨rfl, rfl, rfl, fun _ => (formA_bit15 ..).trans rfl⟩

theorem dsb (f d : Operand) : Statement (.dsb f d) :=
  fun _ => ⟨rfl, rfl, rfl, nofun⟩

theorem dsbb (f d : Operand) : Statement (.dsbb f d) :=
  fun _ => ⟨rfl, rfl, rfl, fun _ => (formA_bit15 ..).trans rfl⟩

theorem cmp (f d : Operand) : Statement (.cmp f d) :=
  fun _ => ⟨rfl, rfl, rfl, nofun⟩

theorem cmpb (f d : Operand) : Statement (.cmpb f d) :=
  fun _ => ⟨rfl, rfl, rfl, fun _ => (formA_bit15 ..).trans rfl⟩

theorem and (f d : Operand) : Statement (.and f d) :=
  fun _ => ⟨rfl, rfl, rfl, nofun⟩

theorem andb (f d : Operand) : Statement (.andb f d) :=
  fun _ => ⟨rfl, rfl, rfl, fun _ => (formA_bit15 ..).trans rfl⟩

theorem or (f d : Operand) : Statement (.or f d) :=
  fun _ => ⟨rfl, rfl, rfl, nofun⟩

theorem orb (f d : Operand) : Statement (.orb f d) :=
  fun _ => ⟨rfl, rfl, rfl, fun _ => (formA_bit15 ..).trans rfl⟩

theorem msk (f d : Operand) : Statement (.msk f d) :=
  fun _ => ⟨rfl, rfl, rfl, nofun⟩

theorem mskb (f d : Operand) : Statement (.mskb f d) :=
  fun _ => ⟨rfl, rfl, rfl, fun _ => (formA_bit15 ..).trans rfl⟩

theorem xor (f d : Operand) : Statement (.xor f d) :=
  fun _ => ⟨rfl, rfl, rfl, nofun⟩

theorem xorb (f d : Operand) : Statement (.xorb f d) :=
  fun _ => ⟨rfl, rfl, rfl, fun _ => (formA_bit15 ..).trans rfl⟩

theorem xnr (f d : Operand) : Statement (.xnr f d) :=
  fun _ => ⟨rfl, rfl, rfl, nofun⟩

theorem xnrb (f d : Operand) : Statement (.xnrb f d) :=
  fun _ => ⟨rfl, rfl, rfl, fun _ => (formA_bit15 ..).trans rfl⟩

theorem coc (f d : Operand) : Statement (.coc f d) :=
  fun _ => ⟨rfl, rfl, rfl, nofun⟩

theorem cocb (f d : Operand) : Statement (.cocb f d) :=
  fun _ => ⟨rfl, rfl, rfl, fun _ => (formA_bit15 ..).trans rfl⟩

theorem czc (f d : Operand) : Statement (.czc f d) :=
  fun _ => ⟨rfl, rfl, rfl, nofun⟩

theorem czcb (f d : Operand) : Statement (.czcb f d) :=
  fun _ => ⟨rfl, rfl, rfl, fun _ => (formA_bit15 ..).trans rfl⟩

theorem mov (f d : Operand) : Statement (.mov f d) :=
  fun _ => ⟨rfl, rfl, rfl, nofun⟩

theorem movb (f d : Operand) : Statement (.movb f d) :=
  fun _ => ⟨rfl, rfl, rfl, fun _ => (formA_bit15 ..).trans rfl⟩

theorem exc (f d : Operand) : Statement (.exc f d) :=
  fun _ => ⟨rfl, rfl, rfl, nofun⟩

theorem excb (f d : Operand) : Statement (.excb f d) :=
  fun _ => ⟨rfl, rfl, rfl, fun _ => (formA_bit15 ..).trans rfl⟩

theorem djz (f d : Operand) : Statement (.djz f d) :=
  fun _ => ⟨rfl, rfl, rfl, nofun⟩

theorem jsb (f d : Operand) : Statement (.jsb f d) :=
  fun _ => ⟨rfl, rfl, rfl, nofun⟩

theorem neg (d : Operand) : Statement (.neg d) :=
  fun _ => ⟨rfl, rfl, rfl, nofun⟩

theorem negb (d : Operand) : Statement (.negb d) :=
  fun _ => ⟨rfl, rfl, rfl, fun _ => (formB_bit15 ..).trans rfl⟩

theorem inc (d : Operand) : Statement (.inc d) :=
  fun _ => ⟨rfl, rfl, rfl, nofun⟩

theorem incb (d : Operand) : Statement (.incb d) :=
  fun _ => ⟨rfl, rfl, rfl, fun _ => (formB_bit15 ..).trans rfl⟩

theorem dcr (d : Operand) : Statement (.dcr d) :=
  fun _ => ⟨rfl, rfl, rfl, nofun⟩

theorem dcrb (d : Operand) : Statement (.dcrb d) :=
  fun _ => ⟨rfl, rfl, rfl, fun _ => (formB_bit15 ..).trans rfl⟩

theorem ict (d : Operand) : Statement (.ict d) :=
  fun _ => ⟨rfl, rfl, rfl, nofun⟩

theorem ictb (d : Operand) : Statement (.ictb d) :=
  fun _ => ⟨rfl, rfl, rfl, fun _ => (formB_bit15 ..).trans rfl⟩

theorem dct (d : Operand) : Statement (.dct d) :=
  fun _ => ⟨rfl, rfl, rfl, nofun⟩

theorem dctb (d : Operand) : Statement (.dctb d) :=
  fun _ => ⟨rfl, rfl, rfl, fun _ => (formB_bit15 ..).trans rfl⟩

theorem cmt (d : Operand) : Statement (.cmt d) :=
  fun _ => ⟨rfl, rfl, rfl, nofun⟩

theorem cmtb (d : Operand) : Statement (.cmtb d) :=
  fun _ => ⟨rfl, rfl, rfl, fun _ => (formB_bit15 ..).trans rfl⟩

theorem stz (d : Operand) : Statement (.stz d) :=
  fun _ => ⟨rfl, rfl, rfl, nofun⟩

theorem stzb (d : Operand) : Statement (.stzb d) :=
  fun _ => ⟨rfl, rfl, rfl, fun _ => (formB_bit15 ..).trans rfl⟩

theorem sto (d : Operand) : Statement (.sto d) :=
  fun _ => ⟨rfl, rfl, rfl, nofun⟩

theorem stob (d : Operand) : Statement (.stob d) :=
  fun _ => ⟨rfl, rfl, rfl, fun _ => (formB_bit15 ..).trans rfl⟩

theorem abs (d : Operand) : Statement (.abs d) :=
  fun _ => ⟨rfl, rfl, rfl, nofun⟩

theorem absb (d : Operand) : Statement (.absb d) :=
  fun _ => ⟨rfl, rfl, rfl, fun _ => (formB_bit15 ..).trans rfl⟩

theorem adc (d : Operand) : Statement (.adc d) :=
  fun _ => ⟨rfl, rfl, rfl, nofun⟩

theorem adcb (d : Operand) : Statement (.adcb d) :=
  fun _ => ⟨rfl, rfl, rfl, fun _ => (formB_bit15 ..).trans rfl⟩

theorem sb (d : Operand) : Statement (.sb d) :=
  fun _ => ⟨rfl, rfl, rfl, nofun⟩

theorem sbb (d : Operand) : Statement (.sbb d) :=
  fun _ => ⟨rfl, rfl, rfl, fun _ => (formB_bit15 ..).trans rfl⟩

theorem cpz (d : Operand) : Statement (.cpz d) :=
  fun _ => ⟨rfl, rfl, rfl, nofun⟩

theorem cpzb (d : Operand) : Statement (.cpzb d) :=
  fun _ => ⟨rfl, rfl, rfl, fun _ => (formB_bit15 ..).trans rfl⟩

theorem sxt (d : Operand) : Statement (.sxt d) :=
  fun _ => ⟨rfl, rfl, rfl, nofun⟩

theorem sxtb (d : Operand) : Statement (.sxtb d) :=
  fun _ => ⟨rfl, rfl, rfl, fun _ => (formB_bit15 ..).trans rfl⟩

theorem sldl (d : Operand) : Statement (.sldl d) :=
  fun _ => ⟨rfl, rfl, rfl, nofun⟩

theorem sdcl (d : Operand) : Statement (.sdcl d) :=
  fun _ => ⟨rfl, rfl, rfl, nofun⟩

theorem rdcl (d : Operand) : Statement (.rdcl d) :=
  fun _ => ⟨rfl, rfl, rfl, nofun⟩

theorem sadl (d : Operand) : Statement (.sadl d) :=
  fun _ => ⟨rfl, rfl, rfl, nofun⟩

theorem rtdl (d : Operand) : Statement (.rtdl d) :=
  fun _ => ⟨rfl, rfl, rfl, nofun⟩

theorem sld (d : Operand) : Statement (.sld d) :=
  fun _ => ⟨rfl, rfl, rfl, nofun⟩

theorem sldb (d : Operand) : Statement (.sldb d) :=
  fun _ => ⟨rfl, rfl, rfl, fun _ => (formB_bit15 ..).trans rfl⟩

theorem sdc (d : Operand) : Statement (.sdc d) :=
  fun _ => ⟨rfl, rfl, rfl, nofun⟩

theorem sdcb (d : Operand) : Statement (.sdcb d) :=
  fun _ => ⟨rfl, rfl, rfl, fun _ => (formB_bit15 ..).trans rfl⟩

theorem rdc (d : Operand) : Statement (.rdc d) :=
  fun _ => ⟨rfl, rfl, rfl, nofun⟩

theorem rdcb (d : Operand) : Statement (.rdcb d) :=
  fun _ => ⟨rfl, rfl, rfl, fun _ => (formB_bit15 ..).trans rfl⟩

theorem sad (d : Operand) : Statement (.sad d) :=
  fun _ => ⟨rfl, rfl, rfl, nofun⟩

theorem sadb (d : Operand) : Statement (.sadb d) :=
  fun _ => ⟨rfl, rfl, rfl, fun _ => (formB_bit15 ..).trans rfl⟩

theorem rtd (d : Operand) : Statement (.rtd d) :=
  fun _ => ⟨rfl, rfl, rfl, nofun⟩

theorem rtdb (d : Operand) : Statement (.rtdb d) :=
  fun _ => ⟨rfl, rfl, rfl, fun _ => (formB_bit15 ..).trans rfl⟩

theorem slel (d : Operand) : Statement (.slel d) :=
  fun _ => ⟨rfl, rfl, rfl, nofun⟩

theorem secl (d : Operand) : Statement (.secl d) :=
  fun _ => ⟨rfl, rfl, rfl, nofun⟩

theorem recl (d : Operand) : Statement (.recl d) :=
  fun _ => ⟨rfl, rfl, rfl, nofun⟩

theorem rtel (d : Operand) : Statement (.rtel d) :=
  fun _ => ⟨rfl, rfl, rfl, nofun⟩

theorem sle (d : Operand) : Statement (.sle d) :=
  fun _ => ⟨rfl, rfl, rfl, nofun⟩

theorem sleb (d : Operand) : Statement (.sleb d) :=
  fun _ => ⟨rfl, rfl, rfl, fun _ => (formB_bit15 ..).trans rfl⟩

theorem sec (d : Operand) : Statement (.sec d) :=
  fun _ => ⟨rfl, rfl, rfl, nofun⟩

theorem secb (d : Operand) : Statement (.secb d) :=
  fun _ => ⟨rfl, rfl, rfl, fun _ => (formB_bit15 ..).trans rfl⟩

theorem recw (d : Operand) : Statement (.recw d) :=
  fun _ => ⟨rfl, rfl, rfl, nofun⟩

theorem recb (d : Operand) : Statement (.recb d) :=
  fun _ => ⟨rfl, rfl, rfl, fun _ => (formB_bit15 ..).trans rfl⟩

theorem rte (d : Operand) : Statement (.rte d) :=
  fun _ => ⟨rfl, rfl, rfl, nofun⟩

theorem rteb (d : Operand) : Statement (.rteb d) :=
  fun _ => ⟨rfl, rfl, rfl, fun _ => (formB_bit15 ..).trans rfl⟩

theorem swb (d : Operand) : Statement (.swb d) :=
  fun _ => ⟨rfl, rfl, rfl, nofun⟩

theorem ret (d : Operand) : Statement (.ret d) :=
  fun _ => ⟨rfl, rfl, rfl, nofun⟩

theorem jmp (d : Operand) : Statement (.jmp d) :=
  fun _ => ⟨rfl, rfl, rfl, nofun⟩

theorem slp (d : Operand) : Statement (.slp d) :=
  fun _ => ⟨rfl, rfl, rfl, nofun⟩

theorem clp (d : Operand) : Statement (.clp d) :=
  fun _ => ⟨rfl, rfl, rfl, nofun⟩

theorem smk (d : Operand) : Statement (.smk d) :=
  fun _ => ⟨rfl, rfl, rfl, nofun⟩

theorem cmk (d : Operand) : Statement (.cmk d) :=
  fun _ => ⟨rfl, rfl, rfl, nofun⟩

theorem dmi (d : Operand) : Statement (.dmi d) :=
  fun _ => ⟨rfl, rfl, rfl, nofun⟩

theorem mki (d : Operand) : Statement (.mki d) :=
  fun _ => ⟨rfl, rfl, rfl, nofun⟩

theorem csps (d : Operand) : Statement (.csps d) :=
  fun _ => ⟨rfl, rfl, rfl, nofun⟩

theorem ssps (d : Operand) : Statement (.ssps d) :=
  fun _ => ⟨rfl, rfl, rfl, nofun⟩

theorem sfgmb (d : Operand) : Statement (.sfgmb d) :=
  fun _ => ⟨rfl, rfl, rfl, fun _ => (formB_bit15 ..).trans rfl⟩

theorem halt : Statement (.halt) :=
  fun _ => ⟨rfl, rfl, rfl, nofun⟩

theorem wait : Statement (.wait) :=
  fun _ => ⟨rfl, rfl, rfl, nofun⟩

theorem nop : Statement (.nop) :=
  fun _ => ⟨rfl, rfl, rfl, nofun⟩

theorem rst : Statement (.rst) :=
  fun _ => ⟨rfl, rfl, rfl, nofun⟩

theorem exs : Statement (.exs) :=
  fun _ => ⟨rfl, rfl, rfl, nofun⟩

theorem rtt : Statement (.rtt) :=
  fun _ => ⟨rfl, rfl, rfl, nofun⟩

theorem rti : Statement (.rti) :=
  fun _ => ⟨rfl, rfl, rfl, nofun⟩

theorem btp : Statement (.btp) :=
  fun _ => ⟨rfl, rfl, rfl, nofun⟩

theorem srg : Statement (.srg) :=
  fun _ => ⟨rfl, rfl, rfl, nofun⟩

theorem crg : Statement (.crg) :=
  fun _ => ⟨rfl, rfl, rfl, nofun⟩

theorem trapn (n : BitVec 3) : Statement (.trapn n) :=
  fun _ => ⟨rfl, rfl, rfl, nofun⟩

theorem dr (o : BitVec 8) : Statement (.dr o) :=
  fun _ => ⟨rfl, rfl, rfl, nofun⟩

theorem dco (o : BitVec 8) : Statement (.dco o) :=
  fun _ => ⟨rfl, rfl, rfl, nofun⟩

theorem dcz (o : BitVec 8) : Statement (.dcz o) :=
  fun _ => ⟨rfl, rfl, rfl, nofun⟩

theorem dvo (o : BitVec 8) : Statement (.dvo o) :=
  fun _ => ⟨rfl, rfl, rfl, nofun⟩

theorem dvz (o : BitVec 8) : Statement (.dvz o) :=
  fun _ => ⟨rfl, rfl, rfl, nofun⟩

theorem dzo (o : BitVec 8) : Statement (.dzo o) :=
  fun _ => ⟨rfl, rfl, rfl, nofun⟩

theorem dzz (o : BitVec 8) : Statement (.dzz o) :=
  fun _ => ⟨rfl, rfl, rfl, nofun⟩

theorem dso (o : BitVec 8) : Statement (.dso o) :=
  fun _ => ⟨rfl, rfl, rfl, nofun⟩

theorem dsz (o : BitVec 8) : Statement (.dsz o) :=
  fun _ => ⟨rfl, rfl, rfl, nofun⟩

theorem dtao (o : BitVec 8) : Statement (.dtao o) :=
  fun _ => ⟨rfl, rfl, rfl, nofun⟩

theorem dtaz (o : BitVec 8) : Statement (.dtaz o) :=
  fun _ => ⟨rfl, rfl, rfl, nofun⟩

theorem dtbo (o : BitVec 8) : Statement (.dtbo o) :=
  fun _ => ⟨rfl, rfl, rfl, nofun⟩

theorem dtbz (o : BitVec 8) : Statement (.dtbz o) :=
  fun _ => ⟨rfl, rfl, rfl, nofun⟩

theorem dtco (o : BitVec 8) : Statement (.dtco o) :=
  fun _ => ⟨rfl, rfl, rfl, nofun⟩

theorem dtcz (o : BitVec 8) : Statement (.dtcz o) :=
  fun _ => ⟨rfl, rfl, rfl, nofun⟩

theorem dge (o : BitVec 8) : Statement (.dge o) :=
  fun _ => ⟨rfl, rfl, rfl, nofun⟩

theorem dlt (o : BitVec 8) : Statement (.dlt o) :=
  fun _ => ⟨rfl, rfl, rfl, nofun⟩

theorem dgt (o : BitVec 8) : Statement (.dgt o) :=
  fun _ => ⟨rfl, rfl, rfl, nofun⟩

theorem dle (o : BitVec 8) : Statement (.dle o) :=
  fun _ => ⟨rfl, rfl, rfl, nofun⟩

theorem dhi (o : BitVec 8) : Statement (.dhi o) :=
  fun _ => ⟨rfl, rfl, rfl, nofun⟩

theorem dls (o : BitVec 8) : Statement (.dls o) :=
  fun _ => ⟨rfl, rfl, rfl, nofun⟩

theorem dhs (o : BitVec 8) : Statement (.dhs o) :=
  fun _ => ⟨rfl, rfl, rfl, nofun⟩

theorem dlo (o : BitVec 8) : Statement (.dlo o) :=
  fun _ => ⟨rfl, rfl, rfl, nofun⟩

theorem erc (k : BitVec 7) : Statement (.erc k) :=
  fun _ => ⟨rfl, rfl, rfl, nofun⟩

theorem cfo (k : BitVec 7) : Statement (.cfo k) :=
  fun _ => ⟨rfl, rfl, rfl, nofun⟩

theorem cfz (k : BitVec 7) : Statement (.cfz k) :=
  fun _ => ⟨rfl, rfl, rfl, nofun⟩

theorem ccc (k : BitVec 7) : Statement (.ccc k) :=
  fun _ => ⟨rfl, rfl, rfl, nofun⟩

theorem cnm (l : BitVec 4) : Statement (.cnm l) :=
  fun _ => ⟨rfl, rfl, rfl, nofun⟩

theorem pfip (a : AcReg) (p : Operand) : Statement (.pfip a p) :=
  fun _ => ⟨rfl, rfl, rfl, nofun⟩

theorem pfim (a b : AcReg) : Statement (.pfim a b) :=
  fun _ => ⟨rfl, rfl, rfl, nofun⟩

theorem ipfp (a : AcReg) (p : Operand) : Statement (.ipfp a p) :=
  fun _ => ⟨rfl, rfl, rfl, nofun⟩

theorem ipfm (a b : AcReg) : Statement (.ipfm a b) :=
  fun _ => ⟨rfl, rfl, rfl, nofun⟩

theorem smpfp (a : AcReg) (p : Operand) : Statement (.smpfp a p) :=
  fun _ => ⟨rfl, rfl, rfl, nofun⟩

theorem smpfm (a b : AcReg) : Statement (.smpfm a b) :=
  fun _ => ⟨rfl, rfl, rfl, nofun⟩

theorem smip (a : AcReg) (p : Operand) : Statement (.smip a p) :=
  fun _ => ⟨rfl, rfl, rfl, nofun⟩

theorem smim (a b : AcReg) : Statement (.smim a b) :=
  fun _ => ⟨rfl, rfl, rfl, nofun⟩

theorem supfp (a : AcReg) (p : Operand) : Statement (.supfp a p) :=
  fun _ => ⟨rfl, rfl, rfl, nofun⟩

theorem supfm (a b : AcReg) : Statement (.supfm a b) :=
  fun _ => ⟨rfl, rfl, rfl, nofun⟩

theorem suip (a : AcReg) (p : Operand) : Statement (.suip a p) :=
  fun _ => ⟨rfl, rfl, rfl, nofun⟩

theorem suim (a b : AcReg) : Statement (.suim a b) :=
  fun _ => ⟨rfl, rfl, rfl, nofun⟩

theorem mlpfp (a : AcReg) (p : Operand) : Statement (.mlpfp a p) :=
  fun _ => ⟨rfl, rfl, rfl, nofun⟩

theorem mlpfm (a b : AcReg) : Statement (.mlpfm a b) :=
  fun _ => ⟨rfl, rfl, rfl, nofun⟩

theorem mlip (a : AcReg) (p : Operand) : Statement (.mlip a p) :=
  fun _ => ⟨rfl, rfl, rfl, nofun⟩

theorem mlim (a b : AcReg) : Statement (.mlim a b) :=
  fun _ => ⟨rfl, rfl, rfl, nofun⟩

theorem dvpfp (a : AcReg) (p : Operand) : Statement (.dvpfp a p) :=
  fun _ => ⟨rfl, rfl, rfl, nofun⟩

theorem dvpfm (a b : AcReg) : Statement (.dvpfm a b) :=
  fun _ => ⟨rfl, rfl, rfl, nofun⟩

theorem dvip (a : AcReg) (p : Operand) : Statement (.dvip a p) :=
  fun _ => ⟨rfl, rfl, rfl, nofun⟩

theorem dvim (a b : AcReg) : Statement (.dvim a b) :=
  fun _ => ⟨rfl, rfl, rfl, nofun⟩

theorem ngpfp (a : AcReg) (p : Operand) : Statement (.ngpfp a p) :=
  fun _ => ⟨rfl, rfl, rfl, nofun⟩

theorem ngpfm (a b : AcReg) : Statement (.ngpfm a b) :=
  fun _ => ⟨rfl, rfl, rfl, nofun⟩

theorem cmpfp (a : AcReg) (p : Operand) : Statement (.cmpfp a p) :=
  fun _ => ⟨rfl, rfl, rfl, nofun⟩

theorem cmpfm (a b : AcReg) : Statement (.cmpfm a b) :=
  fun _ => ⟨rfl, rfl, rfl, nofun⟩

theorem crpf (a : AcReg) (p : Operand) : Statement (.crpf a p) :=
  fun _ => ⟨rfl, rfl, rfl, nofun⟩

theorem abpf (a b : AcReg) : Statement (.abpf a b) :=
  fun _ => ⟨rfl, rfl, rfl, nofun⟩

theorem cri (a : AcReg) (p : Operand) : Statement (.cri a p) :=
  fun _ => ⟨rfl, rfl, rfl, nofun⟩

theorem absi (a b : AcReg) : Statement (.absi a b) :=
  fun _ => ⟨rfl, rfl, rfl, nofun⟩

theorem azpf (a : AcReg) (p : Operand) : Statement (.azpf a p) :=
  fun _ => ⟨rfl, rfl, rfl, nofun⟩

theorem ngin (a b : AcReg) : Statement (.ngin a b) :=
  fun _ => ⟨rfl, rfl, rfl, nofun⟩

theorem azi (a : AcReg) (p : Operand) : Statement (.azi a p) :=
  fun _ => ⟨rfl, rfl, rfl, nofun⟩

theorem cprgi (a b : AcReg) : Statement (.cprgi a b) :=
  fun _ => ⟨rfl, rfl, rfl, nofun⟩

end Sys2Proof.Laws.Encoding
end

