-- ==== Sys2Proof/Tests/Slice0.lean ====
section
/-! SUPPORT. Tests: the checks of WellFormed, a word for every constructor written out from the encodings of
spec/opcode_table.json and 30_encoding.md (don't-care bits are 1 here), one-step tests from 95_test_vectors.md and
96_test_vectors_system.md, and a witness for the hypotheses of every statement that has some. -/

open Sys2Proof Sys2Proof.Machine

namespace Sys2Proof.Tests

/-! ### Helpers -/

/-- A next state with a property. -/
def gives (r : Result) (p : State → Bool) : Bool :=
  match r with
  | .next s => p s
  | .fault _ | .refused _ => false

/-- Words stored one after the other. -/
def wordsAt (m : Memory) (pa : Word) : List Word → Memory
  | [] => m
  | w :: ws => wordsAt (m.write true pa w) (pa + 2) ws

/-- The start state of the vectors: RUN, PC = 0x0100 with the words there, then registers and memory words. -/
def atStart (ws : List Word) (regs : List (PanelReg × Word)) (cells : List (Word × Word)) : State :=
  let s : State := { State.reset with run := .run, pc := 0x0100, mem := wordsAt [] 0x0100 ws }
  let t := cells.foldl (fun s c => { s with mem := s.mem.write true c.1 c.2 }) s
  regs.foldl (fun s r => applyEdit s (.reg r.1 r.2)) t

/-- A word decodes to an instruction. -/
def decodesTo (c : Config) (w : Word) (i : Instr) : Bool :=
  match decode c w with
  | .ok j => decide (j = i)
  | .error _ => false

/-- Each word of a list decodes to its instruction. -/
def decodesAll (l : List (Word × Instr)) : Bool := l.all fun x => decodesTo defaultConfig x.1 x.2

/-- A word is refused with this error. -/
def refusedAs (c : Config) (e : DecodeError) (w : Word) : Bool :=
  match decode c w with
  | .ok _ => false
  | .error f => decide (f = e)

/-- Microprogram 1.0. -/
def v10 : Config := { defaultConfig with ucode := .v10 }

/-! ### WellFormed -/

theorem test_wf_version : (Instr.ict .spDirect).wf v10 = false ∧ (Instr.exc .absolute .absolute).wf v10 = false ∧
    (Instr.ict .spDirect).wf defaultConfig = true := by decide

theorem test_wf_long : (Instr.sldl (.direct .rb)).wf defaultConfig = false ∧
    (Instr.recl .immediate).wf defaultConfig = false ∧ (Instr.crpf .r0 (.indirect .ra)).wf defaultConfig = false ∧
    (Instr.azpf .r3 (.direct .rf)).wf defaultConfig = false ∧ (Instr.sldl (.direct .re)).wf defaultConfig = true ∧
    (Instr.sld .immediate).wf defaultConfig = true := by decide

theorem test_wf_config : defaultConfig.wf = true ∧ v10.wf = true ∧
    ({ defaultConfig with regCode := [.sp, .pc] } : Config).wf = false ∧
    ({ defaultConfig with regCode := List.replicate 8 .sp } : Config).wf = false ∧
    ({ defaultConfig with modeCode := [.m0, .m1, .m2] } : Config).wf = false ∧
    ({ defaultConfig with modeCode := [.m0, .m1, .m2, .m2] } : Config).wf = false ∧
    ({ defaultConfig with pswLayout := ⟨.bit15, .bit14, .bit13, .bit12, .bit12⟩ } : Config).wf = false ∧
    ({ defaultConfig with memMap := [⟨1, 2, .ram⟩] } : Config).wf = false ∧
    ({ defaultConfig with memMap := [⟨0, 3, .ram⟩] } : Config).wf = false := by decide

/-! ### Decoding -/

theorem test_decode_formatA_1 : decodesAll [
    (0b1001001101101001, .add (.indexedIndirect .rd) (.indirect .rb)),
    (0b0001000011100111, .addb (.immediate) (.immediate)),
    (0b1001010110010011, .dac (.indirect .re) (.indexed .rd)),
    (0b0001011001010110, .dacb (.indexed .rc) (.autoinc)),
    (0b1001101111001100, .sub (.stackTop) (.indirect .re)),
    (0b0001100010100110, .subb (.direct .rf) (.spDirect)),
    (0b1001110100111111, .dsb (.indirect .rb) (.relativeIndirect)),
    (0b0001111011010010, .dsbb (.autoinc) (.indexed .rc)),
    (0b1010001111101111, .cmp (.relativeIndirect) (.absolute)),
    (0b0010000000000000, .cmpb (.direct .ra) (.direct .ra)),
    (0b1010010111011110, .and (.autodec) (.stackTop)),
    (0b0010011011100001, .andb (.relative) (.direct .rb)),
    (0b1010101001101110, .or (.indexed .rd) (.autodec)),
    (0b0010100011000101, .orb (.spDirect) (.direct .rf)),
    (0b1010110111111011, .msk (.absolute) (.indexedIndirect .rd)),
    (0b0010110000110111, .mskb (.direct .rb) (.relative))] = true := by decide

theorem test_decode_formatA_2 : decodesAll [
    (0b1011001101101001, .xor (.indexedIndirect .rd) (.indirect .rb)),
    (0b0011000011100111, .xorb (.immediate) (.immediate)),
    (0b1011010110010011, .xnr (.indirect .re) (.indexed .rd)),
    (0b0011011001010110, .xnrb (.indexed .rc) (.autoinc)),
    (0b1011101111001100, .coc (.stackTop) (.indirect .re)),
    (0b0011100010100110, .cocb (.direct .rf) (.spDirect)),
    (0b1011110100111111, .czc (.indirect .rb) (.relativeIndirect)),
    (0b0011111011010010, .czcb (.autoinc) (.indexed .rc)),
    (0b1100001111101111, .mov (.relativeIndirect) (.absolute)),
    (0b0100000000000000, .movb (.direct .ra) (.direct .ra)),
    (0b1100010111011110, .exc (.autodec) (.stackTop)),
    (0b0100011011100001, .excb (.relative) (.direct .rb)),
    (0b1100101001101110, .djz (.indexed .rd) (.autodec)),
    (0b1100110011000101, .jsb (.spDirect) (.direct .rf))] = true := by decide

theorem test_decode_formatB_1 : decodesAll [
    (0b1000000000111011, .neg (.indexedIndirect .rd)),
    (0b0000000000110111, .negb (.relative)),
    (0b1000000001001001, .inc (.indirect .rb)),
    (0b0000000001000111, .incb (.immediate)),
    (0b1000000001110011, .dcr (.indexed .rd)),
    (0b0000000001110110, .dcrb (.autoinc)),
    (0b1000000010001100, .ict (.indirect .re)),
    (0b0000000010000110, .ictb (.spDirect)),
    (0b1000000010111111, .dct (.relativeIndirect)),
    (0b0000000010110010, .dctb (.indexed .rc)),
    (0b1000000011001111, .cmt (.absolute)),
    (0b0000000011000000, .cmtb (.direct .ra)),
    (0b1000000011111110, .stz (.stackTop)),
    (0b0000000011100001, .stzb (.direct .rb)),
    (0b1000000100001110, .sto (.autodec)),
    (0b0000000100000101, .stob (.direct .rf))] = true := by decide

theorem test_decode_formatB_2 : decodesAll [
    (0b1000000100111011, .abs (.indexedIndirect .rd)),
    (0b0000000100110111, .absb (.relative)),
    (0b1000000101001001, .adc (.indirect .rb)),
    (0b0000000101000111, .adcb (.immediate)),
    (0b1000000101110011, .sb (.indexed .rd)),
    (0b0000000101110110, .sbb (.autoinc)),
    (0b1000000110001100, .cpz (.indirect .re)),
    (0b0000000110000110, .cpzb (.spDirect)),
    (0b1000000110111111, .sxt (.relativeIndirect)),
    (0b0000000110110010, .sxtb (.indexed .rc)),
    (0b1000001000000100, .sldl (.direct .re)),
    (0b1000001000100000, .sdcl (.direct .ra)),
    (0b1000001001000010, .rdcl (.direct .rc)),
    (0b1000001001100100, .sadl (.direct .re)),
    (0b1000001010000000, .rtdl (.direct .ra)),
    (0b1000001010100101, .sld (.direct .rf))] = true := by decide

theorem test_decode_formatB_3 : decodesAll [
    (0b0000001010111011, .sldb (.indexedIndirect .rd)),
    (0b1000001011010111, .sdc (.relative)),
    (0b0000001011001001, .sdcb (.indirect .rb)),
    (0b1000001011100111, .rdc (.immediate)),
    (0b0000001011110011, .rdcb (.indexed .rd)),
    (0b1000001100010110, .sad (.autoinc)),
    (0b0000001100001100, .sadb (.indirect .re)),
    (0b1000001100100110, .rtd (.spDirect)),
    (0b0000001100111111, .rtdb (.relativeIndirect)),
    (0b1000010000000100, .slel (.direct .re)),
    (0b1000010000100000, .secl (.direct .ra)),
    (0b1000010001000010, .recl (.direct .rc)),
    (0b1000010001100100, .rtel (.direct .re)),
    (0b1000010010000001, .sle (.direct .rb)),
    (0b0000010010001110, .sleb (.autodec)),
    (0b1000010010100101, .sec (.direct .rf))] = true := by decide

theorem test_decode_formatB_4 : decodesAll [
    (0b0000010010111011, .secb (.indexedIndirect .rd)),
    (0b1000010011010111, .recw (.relative)),
    (0b0000010011001001, .recb (.indirect .rb)),
    (0b1000010011100111, .rte (.immediate)),
    (0b0000010011110011, .rteb (.indexed .rd)),
    (0b1000010101110110, .swb (.autoinc)),
    (0b1000011000001100, .ret (.indirect .re)),
    (0b1000011000100110, .jmp (.spDirect)),
    (0b1000011001011111, .slp (.relativeIndirect)),
    (0b1000011001110010, .clp (.indexed .rc)),
    (0b1000011010001111, .smk (.absolute)),
    (0b1000011010100000, .cmk (.direct .ra)),
    (0b1000011011011110, .dmi (.stackTop)),
    (0b1000011011100001, .mki (.direct .rb)),
    (0b1000011100001110, .csps (.autodec)),
    (0b1000011100100101, .ssps (.direct .rf))] = true := by decide

theorem test_decode_formatB_5 : decodesAll [
    (0b0000011101011011, .sfgmb (.indexedIndirect .rd))] = true := by decide

theorem test_decode_formatC_1 : decodesAll [
    (0b0000000000000000, .halt),
    (0b0000000000000001, .wait),
    (0b0000000000000010, .nop),
    (0b0000000000000011, .rst),
    (0b1000000000000100, .exs),
    (0b1000000000000101, .rtt),
    (0b1000000000000101, .rtt),
    (0b1000000000000111, .btp),
    (0b1000000000001000, .srg),
    (0b1000000000001001, .crg),
    (0b1000000000011101, .trapn 5)] = true := by decide

theorem test_decode_formatD_1 : decodesAll [
    (0b0111000011010011, .dr 211),
    (0b0111000111111000, .dco 248),
    (0b0111001000011101, .dcz 29),
    (0b0111001101000010, .dvo 66),
    (0b0111010001100111, .dvz 103),
    (0b0111010110001100, .dzo 140),
    (0b0111011010110001, .dzz 177),
    (0b0111011111010110, .dso 214),
    (0b0111100011111011, .dsz 251),
    (0b1111100000100000, .dtao 32),
    (0b1111100101000101, .dtaz 69),
    (0b1111101001101010, .dtbo 106),
    (0b1111101110001111, .dtbz 143),
    (0b1111110010110100, .dtco 180),
    (0b1111110111011001, .dtcz 217),
    (0b1111000011111110, .dge 254)] = true := by decide

theorem test_decode_formatD_2 : decodesAll [
    (0b1111000100100011, .dlt 35),
    (0b1111001001001000, .dgt 72),
    (0b1111001101101101, .dle 109),
    (0b1111010010010010, .dhi 146),
    (0b1111010110110111, .dls 183),
    (0b0111001011011100, .dcz 220),
    (0b0111000100000001, .dco 1),
    (0b0111101011011110, .erc 94),
    (0b0111101111111011, .cfo 123),
    (0b0111110010011000, .cfz 24),
    (0b0111110110110101, .ccc 53),
    (0b0111111011111011, .cnm 11)] = true := by decide

theorem test_decode_formatE_1 : decodesAll [
    (0b1000100001000100, .pfip .r2 (.direct .re)),
    (0b1000100010001111, .ipfp .r0 (.absolute)),
    (0b1000100101000000, .smpfp .r2 (.direct .ra)),
    (0b1000100110001110, .smip .r0 (.autodec)),
    (0b1000101001000010, .supfp .r2 (.direct .rc)),
    (0b1000101010001001, .suip .r0 (.indirect .rb)),
    (0b1000101101000100, .mlpfp .r2 (.direct .re)),
    (0b1000101110001100, .mlip .r0 (.indirect .re)),
    (0b1000110001000000, .dvpfp .r2 (.direct .ra)),
    (0b1000110010001111, .dvip .r0 (.absolute)),
    (0b1000110101000010, .ngpfp .r2 (.direct .rc)),
    (0b1000110110000000, .cmpfp .r0 (.direct .ra)),
    (0b1000111001000100, .crpf .r2 (.direct .re)),
    (0b1000111010001001, .cri .r0 (.indirect .rb)),
    (0b1000111101000000, .azpf .r2 (.direct .ra)),
    (0b1000111110001100, .azi .r0 (.indirect .re))] = true := by decide

theorem test_decode_formatF_1 : decodesAll [
    (0b0000100001111100, .pfim .r3 .r0),
    (0b0000100010111101, .ipfm .r1 .r1),
    (0b0000100101111110, .smpfm .r3 .r2),
    (0b0000100110111111, .smim .r1 .r3),
    (0b0000101001111100, .supfm .r3 .r0),
    (0b0000101010111101, .suim .r1 .r1),
    (0b0000101101111110, .mlpfm .r3 .r2),
    (0b0000101110111111, .mlim .r1 .r3),
    (0b0000110001111100, .dvpfm .r3 .r0),
    (0b0000110010111101, .dvim .r1 .r1),
    (0b0000110101111110, .ngpfm .r3 .r2),
    (0b0000110110111111, .cmpfm .r1 .r3),
    (0b0000111001111100, .abpf .r3 .r0),
    (0b0000111010111101, .absi .r1 .r1),
    (0b0000111101111110, .ngin .r3 .r2),
    (0b0000111110111111, .cprgi .r1 .r3)] = true := by decide

/-- 30_encoding.md R129 (a) to (f), at the ends of the ranges. -/
theorem test_decode_unassigned : [0x5000, 0x6FFF, 0xD000, 0xEFFF, 0x4800, 0x4FFF, 0x01C0, 0x0340, 0x0760, 0x8500,
    0x0200, 0x0560, 0x0620, 0x8740, 0x0004, 0x001F, 0x8000, 0x8003, 0x8006, 0x800A, 0x8017, 0x7900, 0x7FFF, 0xF600,
    0xF7FF, 0xFE00, 0xFFFF].all (refusedAs defaultConfig .unassigned) = true := by decide

/-- 30_encoding.md R130. -/
theorem test_decode_long : [0x8201, 0x8203, 0x8205, 0x8206, 0x8208, 0x8467, 0x8801, 0x8F0F].all
    (refusedAs defaultConfig .longOperand) = true := by decide

/-- 30_encoding.md R131: the fourteen codes marked (&) under microprogram 1.0, and the same words under 1.1. -/
theorem test_decode_version : [0xAC00, 0x2C00, 0xB400, 0x3400, 0xBC00, 0x3C00, 0xC400, 0x4400, 0x8080, 0x0080, 0x80A0,
    0x00A0, 0x81A0, 0x01A0].all (fun w => refusedAs v10 .notInMicroprogram10 w && (decode defaultConfig w).toBool) =
      true := by decide

/-- Another choice of the codes (30_encoding.md R114, R115): the same word, other operands. -/
theorem test_decode_codes : decodesTo { defaultConfig with
    regCode := [.pc, .sp, .gen .rf, .gen .re, .gen .rd, .gen .rc, .gen .rb, .gen .ra]
    modeCode := [.m3, .m2, .m1, .m0] } 0x9001 (.add .relativeIndirect .stackTop) = true := by decide

/-- The bytes of an instruction as they lie in memory, and what follows it. -/
theorem test_decode_bytes : (decodeBytes defaultConfig [0xEF, 0x90, 0xFB, 0x00]).toOption =
    some (.add .immediate .absolute, [0xFB, 0x00]) ∧ (decodeBytes defaultConfig [0xEF]).toBool = false ∧
    decodeTableWord 16 0x90EF = some (.add .immediate .absolute) ∧ decodeTableWord 16 0x4800 = none := by decide

/-! ### One step, from the test vectors -/

/-- 95_test_vectors.md, vector T3: ADD RA, RB. -/
theorem test_add :
    gives (step (atStart [0x9001] [(.ra, 0x8000), (.rb, 0x8000)] []))
      (fun t => t.rb == 0x0000 && t.pc == 0x0102 && t.psw == 0x000E) = true := by decide

/-- 95_test_vectors.md, vector T4: ADDB RA, RB. -/
theorem test_addb :
    gives (step (atStart [0x1001] [(.ra, 0x0080), (.rb, 0x1280)] []))
      (fun t => t.rb == 0x1200 && t.pc == 0x0102 && t.psw == 0x000E) = true := by decide

/-- 95_test_vectors.md, vector T7: DAC RA, RB. -/
theorem test_dac :
    gives (step (atStart [0x9401] [(.ra, 0x7FFF), (.rb, 0x0000), (.psw, 0x0008)] []))
      (fun t => t.rb == 0x8000 && t.pc == 0x0102 && t.psw == 0x0005) = true := by decide

/-- 95_test_vectors.md, vector T9: SUB RA, RB. -/
theorem test_sub :
    gives (step (atStart [0x9801] [(.ra, 0x0007), (.rb, 0x0005)] []))
      (fun t => t.rb == 0xFFFE && t.pc == 0x0102 && t.psw == 0x0009) = true := by decide

/-- 95_test_vectors.md, vector T12: SUBB RA, RB. -/
theorem test_subb :
    gives (step (atStart [0x1801] [(.ra, 0x0001), (.rb, 0x3400)] []))
      (fun t => t.rb == 0x34FF && t.pc == 0x0102 && t.psw == 0x0009) = true := by decide

/-- 95_test_vectors.md, vector T13: DSB RA, RB. -/
theorem test_dsb :
    gives (step (atStart [0x9C01] [(.ra, 0x0000), (.rb, 0x0000), (.psw, 0x0008)] []))
      (fun t => t.rb == 0xFFFF && t.pc == 0x0102 && t.psw == 0x0009) = true := by decide

/-- 95_test_vectors.md, vector T17: CMP RA, RB. -/
theorem test_cmp :
    gives (step (atStart [0xA001] [(.ra, 0x7FFF), (.rb, 0xFFFF)] []))
      (fun t => t.pc == 0x0102 && t.psw == 0x000D) = true := by decide

/-- 95_test_vectors.md, vector T19: CMPB RA, RB. -/
theorem test_cmpb :
    gives (step (atStart [0x2001] [(.ra, 0xAA12), (.rb, 0xBB12)] []))
      (fun t => t.pc == 0x0102 && t.psw == 0x0002) = true := by decide

/-- 95_test_vectors.md, vector T21: AND RA, RB. -/
theorem test_and :
    gives (step (atStart [0xA401] [(.ra, 0x0F0F), (.rb, 0x8FF0), (.psw, 0x0008)] []))
      (fun t => t.rb == 0x0F00 && t.pc == 0x0102 && t.psw == 8) = true := by decide

/-- 95_test_vectors.md, vector T22: OR RA, RB. -/
theorem test_or :
    gives (step (atStart [0xA801] [(.ra, 0x8000), (.rb, 0x0001), (.psw, 0x0004)] []))
      (fun t => t.rb == 0x8001 && t.pc == 0x0102 && t.psw == 0x0001) = true := by decide

/-- 95_test_vectors.md, vector T23: MSK RA, RB. -/
theorem test_msk :
    gives (step (atStart [0xAC01] [(.ra, 0x00FF), (.rb, 0x1234)] []))
      (fun t => t.rb == 0x1200 && t.pc == 0x0102 && t.psw == 0) = true := by decide

/-- 95_test_vectors.md, vector T24: XOR RA, RB. -/
theorem test_xor :
    gives (step (atStart [0xB001] [(.ra, 0x5555), (.rb, 0x5555)] []))
      (fun t => t.rb == 0x0000 && t.pc == 0x0102 && t.psw == 0x0002) = true := by decide

/-- 95_test_vectors.md, vector T25: XNR RA, RB. -/
theorem test_xnr :
    gives (step (atStart [0xB401] [(.ra, 0x5555), (.rb, 0x5555)] []))
      (fun t => t.rb == 0xFFFF && t.pc == 0x0102 && t.psw == 0x0001) = true := by decide

/-- 95_test_vectors.md, vector T26: XNRB RA, RB. -/
theorem test_xnrb :
    gives (step (atStart [0x3401] [(.ra, 0x00F0), (.rb, 0x120F)] []))
      (fun t => t.rb == 0x1200 && t.pc == 0x0102 && t.psw == 0x0002) = true := by decide

/-- 95_test_vectors.md, vector T27: COC RA, RB. -/
theorem test_coc :
    gives (step (atStart [0xB801] [(.ra, 0x0011), (.rb, 0xFF31)] []))
      (fun t => t.pc == 0x0102 && t.psw == 0x0002) = true := by decide

/-- 95_test_vectors.md, vector T29: CZC RA, RB. -/
theorem test_czc :
    gives (step (atStart [0xBC01] [(.ra, 0xFF00), (.rb, 0x1200)] []))
      (fun t => t.pc == 0x0102 && t.psw == 0x0002) = true := by decide

/-- 95_test_vectors.md, vector T31: MOV RA, RB. -/
theorem test_mov :
    gives (step (atStart [0xC001] [(.ra, 0x0000), (.rb, 0x1111), (.psw, 0x000C)] []))
      (fun t => t.rb == 0x0000 && t.pc == 0x0102 && t.psw == 0x000A) = true := by decide

/-- 95_test_vectors.md, vector BR3: MOVB RA, @#0xFF02. -/
theorem test_movb :
    gives (step (atStart [] [(.pc, 0x2000), (.psw, 0x5000), (.ra, 0x00FA)] [(0x7000, 0x400F), (0x7002, 0xFF02)]))
      (fun t => t.pc == 0x2004 && t.psw == 0x5001 && t.events == [.devWrite 0xFF02 false 0xFA]) = true := by decide

/-- 95_test_vectors.md, vector T33: EXC RA, RB. -/
theorem test_exc :
    gives (step (atStart [0xC401] [(.ra, 0x0000), (.rb, 0x8000)] []))
      (fun t => t.ra == 0x8000 && t.rb == 0x0000 && t.pc == 0x0102 && t.psw == 0x0002) = true := by decide

/-- 95_test_vectors.md, vector T35: EXCB RA, RB. -/
theorem test_excb :
    gives (step (atStart [0x4401] [(.ra, 0x11AA), (.rb, 0x22BB)] []))
      (fun t => t.ra == 0x11BB && t.rb == 0x22AA && t.pc == 0x0102 && t.psw == 0x0001) = true := by decide

/-- 95_test_vectors.md, vector T37: DJZ RA, #0x0100. -/
theorem test_djz :
    gives (step (atStart [] [(.pc, 0x0300), (.ra, 0x0001)] [(0x0300, 0xC807), (0x0302, 0x0100)]))
      (fun t => t.ra == 0x0000 && t.pc == 0x0304 && t.psw == 0x0002) = true := by decide

/-- 95_test_vectors.md, vector T41: JSB RF, #0x0400. -/
theorem test_jsb :
    gives (step (atStart [] [(.pc, 0x0200), (.rf, 0x1111)] [(0x0200, 0xCCA7), (0x0202, 0x0400)]))
      (fun t => t.rf == 0x0204 && t.sp == 0xF6FE && t.pc == 0x0400 && t.psw == 0 && t.mem.read true 0xF6FE == 0x1111) = true := by decide

/-- 95_test_vectors.md, vector O1: NEG RA. -/
theorem test_neg :
    gives (step (atStart [0x8020] [(.ra, 0x0001)] []))
      (fun t => t.ra == 0xFFFF && t.pc == 0x0102 && t.psw == 0x0009) = true := by decide

/-- 95_test_vectors.md, vector O4: NEGB RA. -/
theorem test_negb :
    gives (step (atStart [0x0020] [(.ra, 0x1280)] []))
      (fun t => t.pc == 0x0102 && t.psw == 0x000D) = true := by decide

/-- 95_test_vectors.md, vector O5: INC RB. -/
theorem test_inc :
    gives (step (atStart [0x8041] [(.rb, 0x7FFF), (.psw, 0x0008)] []))
      (fun t => t.rb == 0x8000 && t.pc == 0x0102 && t.psw == 0x000D) = true := by decide

/-- 95_test_vectors.md, vector O7: INCB RA. -/
theorem test_incb :
    gives (step (atStart [0x0040] [(.ra, 0x127F)] []))
      (fun t => t.ra == 0x1280 && t.pc == 0x0102 && t.psw == 0x0005) = true := by decide

/-- 95_test_vectors.md, vector O12: DCR RA. -/
theorem test_dcr :
    gives (step (atStart [0x8060] [(.ra, 0x0000), (.psw, 0x0008)] []))
      (fun t => t.ra == 0xFFFF && t.pc == 0x0102 && t.psw == 0x0009) = true := by decide

/-- 95_test_vectors.md, vector O13: ICT RA. -/
theorem test_ict :
    gives (step (atStart [0x8080] [(.ra, 0x7FFE)] []))
      (fun t => t.ra == 0x8000 && t.pc == 0x0102 && t.psw == 0x0005) = true := by decide

/-- 95_test_vectors.md, vector O15: DCT RA. -/
theorem test_dct :
    gives (step (atStart [0x80A0] [(.ra, 0x0002)] []))
      (fun t => t.ra == 0x0000 && t.pc == 0x0102 && t.psw == 0x0002) = true := by decide

/-- 95_test_vectors.md, vector O18: CMT RA. -/
theorem test_cmt :
    gives (step (atStart [0x80C0] [(.ra, 0xFFFF), (.psw, 0x000C)] []))
      (fun t => t.ra == 0x0000 && t.pc == 0x0102 && t.psw == 0x000A) = true := by decide

/-- 95_test_vectors.md, vector O19: CMTB RA. -/
theorem test_cmtb :
    gives (step (atStart [0x00C0] [(.ra, 0x120F)] []))
      (fun t => t.ra == 0x12F0 && t.pc == 0x0102 && t.psw == 0x0001) = true := by decide

/-- 95_test_vectors.md, vector O20: STZ RA. -/
theorem test_stz :
    gives (step (atStart [0x80E0] [(.ra, 0x1234), (.psw, 0x000D)] []))
      (fun t => t.ra == 0x0000 && t.pc == 0x0102 && t.psw == 0x000A) = true := by decide

/-- 95_test_vectors.md, vector O21: STZB RA. -/
theorem test_stzb :
    gives (step (atStart [0x00E0] [(.ra, 0x1234)] []))
      (fun t => t.ra == 0x1200 && t.pc == 0x0102 && t.psw == 0x0002) = true := by decide

/-- 95_test_vectors.md, vector O23: STO RA. -/
theorem test_sto :
    gives (step (atStart [0x8100] [(.ra, 0x0000)] []))
      (fun t => t.ra == 0xFFFF && t.pc == 0x0102 && t.psw == 0x0001) = true := by decide

/-- 95_test_vectors.md, vector O24: STOB RA. -/
theorem test_stob :
    gives (step (atStart [0x0100] [(.ra, 0x1200)] []))
      (fun t => t.ra == 0x12FF && t.pc == 0x0102 && t.psw == 0x0001) = true := by decide

/-- 95_test_vectors.md, vector O26: ABS RA. -/
theorem test_abs :
    gives (step (atStart [0x8120] [(.ra, 0x8000)] []))
      (fun t => t.pc == 0x0102 && t.psw == 0x0005) = true := by decide

/-- 95_test_vectors.md, vector O29b: ABSB RA. -/
theorem test_absb :
    gives (step (atStart [0x0120] [(.ra, 0x1280)] []))
      (fun t => t.pc == 0x0102 && t.psw == 0x0005) = true := by decide

/-- 95_test_vectors.md, vector O30: ADC RA. -/
theorem test_adc :
    gives (step (atStart [0x8140] [(.ra, 0xFFFF), (.psw, 0x0008)] []))
      (fun t => t.ra == 0x0000 && t.pc == 0x0102 && t.psw == 0x000A) = true := by decide

/-- 95_test_vectors.md, vector O33: SB RA. -/
theorem test_sb :
    gives (step (atStart [0x8160] [(.ra, 0x0000), (.psw, 0x0008)] []))
      (fun t => t.ra == 0xFFFF && t.pc == 0x0102 && t.psw == 0x0009) = true := by decide

/-- 95_test_vectors.md, vector O36: CPZ RA. -/
theorem test_cpz :
    gives (step (atStart [0x8180] [(.ra, 0x8000), (.psw, 0x000C)] []))
      (fun t => t.pc == 0x0102 && t.psw == 0x0001) = true := by decide

/-- 95_test_vectors.md, vector O37: CPZB RA. -/
theorem test_cpzb :
    gives (step (atStart [0x0180] [(.ra, 0xFF00)] []))
      (fun t => t.pc == 0x0102 && t.psw == 0x0002) = true := by decide

/-- 95_test_vectors.md, vector O39: SXT RB. -/
theorem test_sxt :
    gives (step (atStart [0x81A1] [(.psw, 0x0004), (.rb, 0x1234)] []))
      (fun t => t.rb == 0x0000 && t.pc == 0x0102 && t.psw == 0x0002) = true := by decide

/-- 95_test_vectors.md, vector O40: SXTB RB. -/
theorem test_sxtb :
    gives (step (atStart [0x01A1] [(.psw, 0x0001), (.rb, 0x1234)] []))
      (fun t => t.rb == 0x12FF && t.pc == 0x0102 && t.psw == 1) = true := by decide

/-- 95_test_vectors.md, vector S2: SLDL RA. -/
theorem test_sldl :
    gives (step (atStart [0x8200] [(.ra, 0x0001), (.rb, 0x0000), (.psw, 0x0000)] []))
      (fun t => t.ra == 0x0000 && t.rb == 0x8000 && t.pc == 0x0102 && t.psw == 0x0002) = true := by decide

/-- 95_test_vectors.md, vector S3: SDCL RA. -/
theorem test_sdcl :
    gives (step (atStart [0x8220] [(.ra, 0x0000), (.rb, 0x0003), (.psw, 0x0008)] []))
      (fun t => t.ra == 0x8000 && t.rb == 0x0001 && t.pc == 0x0102 && t.psw == 0x0001) = true := by decide

/-- 95_test_vectors.md, vector S4: RDCL RA. -/
theorem test_rdcl :
    gives (step (atStart [0x8240] [(.ra, 0x0000), (.rb, 0x0001), (.psw, 0x0000)] []))
      (fun t => t.rb == 0x0000 && t.pc == 0x0102 && t.psw == 0x000A) = true := by decide

/-- 95_test_vectors.md, vector S6: SADL RA. -/
theorem test_sadl :
    gives (step (atStart [0x8260] [(.ra, 0x8000), (.rb, 0x0000), (.psw, 0x0000)] []))
      (fun t => t.ra == 0xC000 && t.pc == 0x0102 && t.psw == 0x0001) = true := by decide

/-- 95_test_vectors.md, vector S8: RTDL RA. -/
theorem test_rtdl :
    gives (step (atStart [0x8280] [(.ra, 0x0000), (.rb, 0x0001), (.psw, 0x0008)] []))
      (fun t => t.ra == 0x8000 && t.rb == 0x0000 && t.pc == 0x0102 && t.psw == 0x0009) = true := by decide

/-- 95_test_vectors.md, vector S20: SLD RA. -/
theorem test_sld :
    gives (step (atStart [0x82A0] [(.ra, 0x8001), (.psw, 0x0008)] []))
      (fun t => t.ra == 0x4000 && t.pc == 0x0102 && t.psw == 8) = true := by decide

/-- 95_test_vectors.md, vector S21: SLDB RA. -/
theorem test_sldb :
    gives (step (atStart [0x02A0] [(.ra, 0x1201)] []))
      (fun t => t.ra == 0x1200 && t.pc == 0x0102 && t.psw == 0x0002) = true := by decide

/-- 95_test_vectors.md, vector S22: SDC RA. -/
theorem test_sdc :
    gives (step (atStart [0x82C0] [(.ra, 0x0002), (.psw, 0x0008)] []))
      (fun t => t.ra == 0x8001 && t.pc == 0x0102 && t.psw == 0x0001) = true := by decide

/-- 95_test_vectors.md, vector S23: SDCB RA. -/
theorem test_sdcb :
    gives (step (atStart [0x02C0] [(.ra, 0x1203), (.psw, 0x0008)] []))
      (fun t => t.ra == 0x1281 && t.pc == 0x0102 && t.psw == 0x0001) = true := by decide

/-- 95_test_vectors.md, vector S24: RDC RA. -/
theorem test_rdc :
    gives (step (atStart [0x82E0] [(.ra, 0x0001)] []))
      (fun t => t.ra == 0x0000 && t.pc == 0x0102 && t.psw == 0x000A) = true := by decide

/-- 95_test_vectors.md, vector S26: RDCB RA. -/
theorem test_rdcb :
    gives (step (atStart [0x02E0] [(.ra, 0x1281), (.psw, 0x0000)] []))
      (fun t => t.ra == 0x1240 && t.pc == 0x0102 && t.psw == 0x0008) = true := by decide

/-- 95_test_vectors.md, vector S27: SAD RA. -/
theorem test_sad :
    gives (step (atStart [0x8300] [(.ra, 0x8002)] []))
      (fun t => t.ra == 0xC001 && t.pc == 0x0102 && t.psw == 0x0001) = true := by decide

/-- 95_test_vectors.md, vector S28: SADB RA. -/
theorem test_sadb :
    gives (step (atStart [0x0300] [(.ra, 0x1280)] []))
      (fun t => t.ra == 0x12C0 && t.pc == 0x0102 && t.psw == 0x0001) = true := by decide

/-- 95_test_vectors.md, vector S29: RTD RA. -/
theorem test_rtd :
    gives (step (atStart [0x8320] [(.ra, 0x0001)] []))
      (fun t => t.ra == 0x8000 && t.pc == 0x0102 && t.psw == 0x0001) = true := by decide

/-- 95_test_vectors.md, vector S30: RTDB RA. -/
theorem test_rtdb :
    gives (step (atStart [0x0320] [(.ra, 0x1201)] []))
      (fun t => t.ra == 0x1280 && t.pc == 0x0102 && t.psw == 0x0001) = true := by decide

/-- 95_test_vectors.md, vector S9: SLEL RA. -/
theorem test_slel :
    gives (step (atStart [0x8400] [(.ra, 0x4000), (.rb, 0x8000), (.psw, 0x0000)] []))
      (fun t => t.ra == 0x8001 && t.rb == 0x0000 && t.pc == 0x0102 && t.psw == 0x0001) = true := by decide

/-- 95_test_vectors.md, vector S10: SECL RA. -/
theorem test_secl :
    gives (step (atStart [0x8420] [(.ra, 0x8000), (.rb, 0x0000), (.psw, 0x0000)] []))
      (fun t => t.ra == 0x0000 && t.pc == 0x0102 && t.psw == 0x000A) = true := by decide

/-- 95_test_vectors.md, vector S11: RECL RA. -/
theorem test_recl :
    gives (step (atStart [0x8440] [(.ra, 0x8000), (.rb, 0x0000), (.psw, 0x0008)] []))
      (fun t => t.ra == 0x0000 && t.rb == 0x0001 && t.pc == 0x0102 && t.psw == 0x000A) = true := by decide

/-- 95_test_vectors.md, vector S12: RTEL RA. -/
theorem test_rtel :
    gives (step (atStart [0x8460] [(.ra, 0x8000), (.rb, 0x0000), (.psw, 0x0000)] []))
      (fun t => t.ra == 0x0000 && t.rb == 0x0001 && t.pc == 0x0102 && t.psw == 0x0002) = true := by decide

/-- 95_test_vectors.md, vector S31: SLE RA. -/
theorem test_sle :
    gives (step (atStart [0x8480] [(.ra, 0x4001)] []))
      (fun t => t.ra == 0x8002 && t.pc == 0x0102 && t.psw == 0x0001) = true := by decide

/-- 95_test_vectors.md, vector S32: SLEB RA. -/
theorem test_sleb :
    gives (step (atStart [0x0480] [(.ra, 0x1280)] []))
      (fun t => t.ra == 0x1200 && t.pc == 0x0102 && t.psw == 0x0002) = true := by decide

/-- 95_test_vectors.md, vector S33: SEC RA. -/
theorem test_sec :
    gives (step (atStart [0x84A0] [(.ra, 0x8000)] []))
      (fun t => t.ra == 0x0000 && t.pc == 0x0102 && t.psw == 0x000A) = true := by decide

/-- 95_test_vectors.md, vector S34: SECB RA. -/
theorem test_secb :
    gives (step (atStart [0x04A0] [(.ra, 0x1281), (.psw, 0x0000)] []))
      (fun t => t.ra == 0x1202 && t.pc == 0x0102 && t.psw == 0x0008) = true := by decide

/-- 95_test_vectors.md, vector S35: REC RA. -/
theorem test_rec :
    gives (step (atStart [0x84C0] [(.ra, 0x8000)] []))
      (fun t => t.ra == 0x0000 && t.pc == 0x0102 && t.psw == 0x000A) = true := by decide

/-- 95_test_vectors.md, vector S37: RECB RA. -/
theorem test_recb :
    gives (step (atStart [0x04C0] [(.ra, 0x1240), (.psw, 0x0008)] []))
      (fun t => t.ra == 0x1281 && t.pc == 0x0102 && t.psw == 0x0001) = true := by decide

/-- 95_test_vectors.md, vector S38: RTE RA. -/
theorem test_rte :
    gives (step (atStart [0x84E0] [(.ra, 0x8001)] []))
      (fun t => t.ra == 0x0003 && t.pc == 0x0102 && t.psw == 0) = true := by decide

/-- 95_test_vectors.md, vector S39: RTEB RA. -/
theorem test_rteb :
    gives (step (atStart [0x04E0] [(.ra, 0x1280)] []))
      (fun t => t.ra == 0x1201 && t.pc == 0x0102 && t.psw == 0) = true := by decide

/-- 95_test_vectors.md, vector O41: SWB RA. -/
theorem test_swb :
    gives (step (atStart [0x8560] [(.ra, 0x0180)] []))
      (fun t => t.ra == 0x8001 && t.pc == 0x0102 && t.psw == 0x0001) = true := by decide

/-- 95_test_vectors.md, vector K2: RET (SP). -/
theorem test_ret :
    gives (step (atStart [0x861E] [(.sp, 0xF6FC)] [(0xF6FC, 0x0A00), (0xF6FE, 0x0204)]))
      (fun t => t.sp == 0xF6FE && t.pc == 0x0A00 && t.psw == 0 && t.mem.read true 0xF6FC == 0x0A00) = true := by decide

/-- 95_test_vectors.md, vector K4: JMP #0x0301. -/
theorem test_jmp :
    gives (step (atStart [0x8627, 0x0301] [] []))
      (fun t => t.pc == 0x0300 && t.psw == 0) = true := by decide

/-- 95_test_vectors.md, vector K9: SLP RA. -/
theorem test_slp :
    gives (step (atStart [0x8640] [] []))
      (fun t => t.ra == 0xF600 && t.pc == 0x0102 && t.psw == 0) = true := by decide

/-- 95_test_vectors.md, vector K10: CLP #0xE001. -/
theorem test_clp :
    gives (step (atStart [0x8667, 0xE001] [] []))
      (fun t => t.lp == 0xE001 && t.pc == 0x0104 && t.psw == 0) = true := by decide

/-- 95_test_vectors.md, vector K11: SMK -(SP). -/
theorem test_smk :
    gives (step (atStart [0x868E] [(.imk, 0x7FFF)] []))
      (fun t => t.sp == 0xF6FE && t.pc == 0x0102 && t.psw == 0 && t.mem.read true 0xF6FE == 0x7FFF) = true := by decide

/-- 95_test_vectors.md, vector K12: CMK #0xFFFF. -/
theorem test_cmk :
    gives (step (atStart [0x86A7, 0xFFFF] [] []))
      (fun t => t.pc == 0x0104 && t.imk == 0x7FFF && t.psw == 0) = true := by decide

/-- 95_test_vectors.md, vector K13: DMI #0x0005. -/
theorem test_dmi :
    gives (step (atStart [0x86C7, 0x0005] [(.imk, 0x7FFF)] []))
      (fun t => t.pc == 0x0104 && t.imk == 0x7FFA && t.psw == 0) = true := by decide

/-- 95_test_vectors.md, vector K14: MKI #0x8003. -/
theorem test_mki :
    gives (step (atStart [0x86E7, 0x8003] [] []))
      (fun t => t.pc == 0x0104 && t.imk == 0x0003 && t.psw == 0) = true := by decide

/-- 95_test_vectors.md, vector K15: CSPS #0xF001. -/
theorem test_csps :
    gives (step (atStart [0x8707, 0xF001] [] []))
      (fun t => t.sps == 0xF000 && t.pc == 0x0104 && t.psw == 0) = true := by decide

/-- 95_test_vectors.md, vector K16: SSPS RA. -/
theorem test_ssps :
    gives (step (atStart [0x8720] [] []))
      (fun t => t.ra == 0xF800 && t.pc == 0x0102 && t.psw == 0) = true := by decide

/-- 95_test_vectors.md, vector K17: SFGMB RA. -/
theorem test_sfgmb :
    gives (step { atStart [0x0740] [(.ra, 0x1200)] [] with mf := ⟨true, false, false, false, false, false⟩ })
      (fun t => t.ra == 0x1283 && t.pc == 0x0102 && t.psw == 0) = true := by decide

/-- 95_test_vectors.md, vector Z1: HALT. -/
theorem test_halt :
    gives (step (atStart [0x0000] [] []))
      (fun t => t.pc == 0x0102 && t.run == .halt && t.psw == 0) = true := by decide

/-- 95_test_vectors.md, vector Z2: WAIT. -/
theorem test_wait :
    gives (step (atStart [0x0001] [] []))
      (fun t => t.pc == 0x0102 && t.run == .wait && t.psw == 0) = true := by decide

/-- 95_test_vectors.md, vector Z3: NOP. -/
theorem test_nop :
    gives (step (atStart [0x0002] [(.psw, 0x0F7F)] []))
      (fun t => t.pc == 0x0102 && t.psw == 3967) = true := by decide

/-- 95_test_vectors.md, vector Z4: RST. -/
theorem test_rst :
    gives (step (atStart [0x0003] [(.ra, 0x1234), (.sp, 0x4000), (.sps, 0x5000), (.lp, 0x3000), (.imk, 0x00FF), (.psw, 0x050F)] [(0xFF80, 0x0100), (0xFF82, 0x0401)]))
      (fun t => t.sp == 0xF700 && t.sps == 0xF800 && t.lp == 0xF600 && t.pc == 0x0400 && t.psw == 0x0100 && t.imk == 0x0000 && t.run == .halt) = true := by decide

/-- 95_test_vectors.md, vector Z5: EXS. -/
theorem test_exs :
    gives (step (atStart [] [(.pc, 0x0200), (.psw, 0x0001), (.sps, 0xF7FC)] [(0x0200, 0x8004), (0xF7FC, 0x0008), (0xF7FE, 0x0400)]))
      (fun t => t.pc == 0x0400 && t.psw == 0x0008 && t.mem.read true 0xF7FE == 0x0202 && t.mem.read true 0xF7FC == 0x0001) = true := by decide

/-- 95_test_vectors.md, vector Z6: RTT. -/
theorem test_rtt :
    gives (step (atStart [0x8005] [(.sps, 0xF7FC)] [(0xF7FC, 0x0302), (0xF7FE, 0x0151)]))
      (fun t => t.sps == 0xF800 && t.pc == 0x0150 && t.psw == 0x0302) = true := by decide

/-- 95_test_vectors.md, vector Z8: BTP. -/
theorem test_btp :
    gives (step (atStart [] [(.pc, 0x0200), (.psw, 0x0003)] [(0x0200, 0x8007), (0xFF98, 0x0F00), (0xFF9A, 0x1000)]))
      (fun t => t.sps == 0xF7FC && t.pc == 0x1000 && t.psw == 0x0F00 && t.mem.read true 0xF7FE == 0x0202 && t.mem.read true 0xF7FC == 0x0003) = true := by decide

/-- 95_test_vectors.md, vector Z9: SRG. -/
theorem test_srg :
    gives (step (atStart [0x8008] [(.ra, 0x0001), (.rb, 0x0002), (.rc, 0x0003), (.rd, 0x0004), (.re, 0x0005), (.rf, 0x0006)] []))
      (fun t => t.sp == 0xF6F4 && t.pc == 0x0102 && t.psw == 0 && t.mem.read true 0xF6FE == 0x0006 && t.mem.read true 0xF6FC == 0x0005 && t.mem.read true 0xF6FA == 0x0004 && t.mem.read true 0xF6F8 == 0x0003 && t.mem.read true 0xF6F6 == 0x0002 && t.mem.read true 0xF6F4 == 0x0001) = true := by decide

/-- 95_test_vectors.md, vector Z10: CRG. -/
theorem test_crg :
    gives (step (atStart [0x8009] [(.sp, 0xF6F4)] [(0xF6F4, 0x0001), (0xF6F6, 0x0002), (0xF6F8, 0x0003), (0xF6FA, 0x0004), (0xF6FC, 0x0005), (0xF6FE, 0x0006)]))
      (fun t => t.ra == 0x0001 && t.rb == 0x0002 && t.rc == 0x0003 && t.rd == 0x0004 && t.re == 0x0005 && t.rf == 0x0006 && t.sp == 0xF700 && t.pc == 0x0102 && t.psw == 0) = true := by decide

/-- 95_test_vectors.md, vector Z12: TRAP2. -/
theorem test_trapn :
    gives (step (atStart [] [(.pc, 0x0300)] [(0x0300, 0x801A), (0xFFA8, 0x0F00), (0xFFAA, 0x2000)]))
      (fun t => t.sps == 0xF7FC && t.pc == 0x2000 && t.psw == 0x0F00 && t.mem.read true 0xF7FE == 0x0302 && t.mem.read true 0xF7FC == 0x0000) = true := by decide

/-- 95_test_vectors.md, vector B1: DR +3. -/
theorem test_dr :
    gives (step (atStart [0x7003] [] []))
      (fun t => t.pc == 0x0108 && t.psw == 0) = true := by decide

/-- 95_test_vectors.md, vector B7: DCO +4. -/
theorem test_dco :
    gives (step (atStart [0x7104] [(.psw, 0x0008)] []))
      (fun t => t.pc == 0x010A && t.psw == 8) = true := by decide

/-- 95_test_vectors.md, vector B9: DZZ -2. -/
theorem test_dzz :
    gives (step (atStart [0x76FE] [(.psw, 0x0000)] []))
      (fun t => t.pc == 0x00FE && t.psw == 0) = true := by decide

/-- 95_test_vectors.md, vector B10: DTAO +1. -/
theorem test_dtao :
    gives (step (atStart [0xF801] [(.psw, 0x0040)] []))
      (fun t => t.pc == 0x0104 && t.psw == 64) = true := by decide

/-- 95_test_vectors.md, vector B11: DTCZ +1. -/
theorem test_dtcz :
    gives (step (atStart [0xFD01] [(.psw, 0x0010)] []))
      (fun t => t.pc == 0x0102 && t.psw == 16) = true := by decide

/-- 95_test_vectors.md, vector B12: DGE +1. -/
theorem test_dge :
    gives (step (atStart [0xF001] [(.psw, 0x0005)] []))
      (fun t => t.pc == 0x0104 && t.psw == 5) = true := by decide

/-- 95_test_vectors.md, vector B13: DGT +1. -/
theorem test_dgt :
    gives (step (atStart [0xF201] [(.psw, 0x0002)] []))
      (fun t => t.pc == 0x0102 && t.psw == 2) = true := by decide

/-- 95_test_vectors.md, vector B14: DHI +1. -/
theorem test_dhi :
    gives (step (atStart [0xF401] [(.psw, 0x0000)] []))
      (fun t => t.pc == 0x0104 && t.psw == 0) = true := by decide

/-- 95_test_vectors.md, vector B15: DLS +1. -/
theorem test_dls :
    gives (step (atStart [0xF501] [(.psw, 0x0008)] []))
      (fun t => t.pc == 0x0104 && t.psw == 8) = true := by decide

/-- 95_test_vectors.md, vector M4: ERC 0x44. -/
theorem test_erc :
    gives (step (atStart [0x7A44] [(.psw, 0x004D)] []))
      (fun t => t.pc == 0x0104 && t.psw == 0x0009) = true := by decide

/-- 95_test_vectors.md, vector M8: CFO 0xFF. -/
theorem test_cfo :
    gives (step (atStart [0x7BFF] [(.psw, 0x0500)] []))
      (fun t => t.pc == 0x0102 && t.psw == 0x057F) = true := by decide

/-- 95_test_vectors.md, vector M9: CFZ 0x77. -/
theorem test_cfz :
    gives (step (atStart [0x7C77] [(.psw, 0x007F)] []))
      (fun t => t.pc == 0x0102 && t.psw == 0x0077) = true := by decide

/-- 95_test_vectors.md, vector M11: CCC 0x0A. -/
theorem test_ccc :
    gives (step (atStart [0x7D0A] [(.psw, 0x0075)] []))
      (fun t => t.pc == 0x0102 && t.psw == 0x000A) = true := by decide

/-- 95_test_vectors.md, vector M13: CNM 15. -/
theorem test_cnm :
    gives (step (atStart [0x7E0F] [(.psw, 0x0001)] []))
      (fun t => t.pc == 0x0102 && t.psw == 0x0F01) = true := by decide

/-- 96_test_vectors_system.md, vector A32: SMPFP R0,RA with UPFOK = 0. -/
theorem test_smpfp :
    gives (step { atStart [0x8900] [] [(0xFF94, 0x0000), (0xFF96, 0x0D00)] with inp := { quietInputs with upfok := false } })
      (fun t => t.sps == 0xF7FC && t.pc == 0x0D00 && t.psw == 0 && t.mem.read true 0xF7FE == 0x0102 && t.mem.read true 0xF7FC == 0x0000) = true := by decide

/-- 96_test_vectors_system.md, vector A1: SMIP R0,#5. -/
theorem test_smip :
    gives (step { atStart [0x8987, 0x0005] [] [] with m := ⟨0x0000FFFE, 0, 0, 0⟩ })
      (fun t => t.pc == 0x0104 && t.m.r0 == 0x00000003 && t.psw == 0) = true := by decide

/-- 96_test_vectors_system.md, vector A3: SMIM R1,R2. -/
theorem test_smim :
    gives (step { atStart [0x09A2] [] [] with m := ⟨0, 0x00000003, 0x0000FFFD, 0⟩ })
      (fun t => t.pc == 0x0102 && t.m.r1 == 0x00000000 && t.mf.zupf && t.psw == 0) = true := by decide

/-- 96_test_vectors_system.md, vector A5: SUIP R1,RB. -/
theorem test_suip :
    gives (step { atStart [0x8AA1] [(.rb, 0x0007)] [] with m := ⟨0, 0x00000005, 0, 0⟩ })
      (fun t => t.pc == 0x0102 && t.m.r1 == 0x0000FFFE && t.mf.supf && t.psw == 0) = true := by decide

/-- 96_test_vectors_system.md, vector A6: SUIM R0,R1. -/
theorem test_suim :
    gives (step { atStart [0x0A81] [] [(0xFF94, 0x0000), (0xFF96, 0x0D00)] with m := ⟨0x00008000, 0x00000001, 0, 0⟩ })
      (fun t => t.sps == 0xF7FC && t.pc == 0x0D00 && t.mf.ovfl && t.psw == 0 && t.mem.read true 0xF7FE == 0x0102 && t.mem.read true 0xF7FC == 0x0000) = true := by decide

/-- 96_test_vectors_system.md, vector A7: MLIP R2,#0xFFFD. -/
theorem test_mlip :
    gives (step { atStart [0x8BC7, 0xFFFD] [] [] with m := ⟨0, 0, 0x00000007, 0⟩ })
      (fun t => t.pc == 0x0104 && t.m.r2 == 0x0000FFEB && t.mf.supf && t.psw == 0) = true := by decide

/-- 96_test_vectors_system.md, vector A8: MLIM R0,R3. -/
theorem test_mlim :
    gives (step { atStart [0x0B83] [] [] with m := ⟨0x00000064, 0, 0, 0x00000064⟩ })
      (fun t => t.pc == 0x0102 && t.m.r0 == 0x00002710 && t.psw == 0) = true := by decide

/-- 96_test_vectors_system.md, vector A10: DVIP R0,#4. -/
theorem test_dvip :
    gives (step { atStart [0x8C87, 0x0004] [] [] with m := ⟨0x00000014, 0, 0, 0⟩ })
      (fun t => t.pc == 0x0104 && t.m.r0 == 0x00000005 && t.psw == 0) = true := by decide

/-- 96_test_vectors_system.md, vector A13: DVIM R3,R0. -/
theorem test_dvim :
    gives (step { atStart [0x0CE0] [] [] with m := ⟨0x00000005, 0, 0, 0x0000FFF6⟩ })
      (fun t => t.pc == 0x0102 && t.m.r3 == 0x0000FFFE && t.mf.supf && t.psw == 0) = true := by decide

/-- 96_test_vectors_system.md, vector A22: CRPF R0,RA. -/
theorem test_crpf :
    gives (step (atStart [0x8E00] [(.ra, 0x1234), (.rb, 0x5678)] []))
      (fun t => t.pc == 0x0102 && t.m.r0 == 0x12345678 && t.psw == 0) = true := by decide

/-- 96_test_vectors_system.md, vector A20: CRI R0,#0xFFFE. -/
theorem test_cri :
    gives (step { atStart [0x8E87, 0xFFFE] [] [] with m := ⟨0xAAAA5555, 0, 0, 0⟩ })
      (fun t => t.pc == 0x0104 && t.m.r0 == 0x0000FFFE && t.psw == 0) = true := by decide

/-- 96_test_vectors_system.md, vector A18: ABSI R3,R3. -/
theorem test_absi :
    gives (step { atStart [0x0EE3] [] [] with m := ⟨0, 0, 0, 0x0000FFF6⟩ })
      (fun t => t.pc == 0x0102 && t.m.r3 == 0x0000000A && t.psw == 0) = true := by decide

/-- 96_test_vectors_system.md, vector A25: AZPF R0,RC. -/
theorem test_azpf :
    gives (step { atStart [0x8F02] [] [] with m := ⟨0x12345678, 0, 0, 0⟩ })
      (fun t => t.rc == 0x1234 && t.rd == 0x5678 && t.pc == 0x0102 && t.psw == 0) = true := by decide

/-- 96_test_vectors_system.md, vector A15: NGIN R0,R1. -/
theorem test_ngin :
    gives (step { atStart [0x0F01] [] [] with m := ⟨0, 0x00000005, 0, 0⟩ })
      (fun t => t.pc == 0x0102 && t.m.r0 == 0x0000FFFB && t.mf.supf && t.psw == 0) = true := by decide

/-- 96_test_vectors_system.md, vector A26: AZI R0,RA. -/
theorem test_azi :
    gives (step { atStart [0x8F80] [] [] with m := ⟨0x0000FFFB, 0, 0, 0⟩ })
      (fun t => t.ra == 0xFFFB && t.pc == 0x0102 && t.psw == 0) = true := by decide

/-- 96_test_vectors_system.md, vector A19: CPRGI R2,R0. -/
theorem test_cprgi :
    gives (step { atStart [0x0FC0] [] [] with m := ⟨0x12345678, 0, 0, 0⟩, mf := ⟨true, true, false, false, false, false⟩ })
      (fun t => t.pc == 0x0102 && t.m.r2 == 0x12345678 && !t.mf.zupf && !t.mf.supf && t.psw == 0) = true := by decide

/-- 95_test_vectors.md, vector AM4: MOV @4(RA), RB. -/
theorem test_vector_am4 :
    gives (step (atStart [0xC301, 0x0004] [(.ra, 0x2000)] [(0x2004, 0x3000), (0x3000, 0x1234)]))
      (fun t => t.rb == 0x1234 && t.pc == 0x0104 && t.psw == 0) = true := by decide

/-- 95_test_vectors.md, vector AM9: MOV #0x1234, RA. -/
theorem test_vector_am9 :
    gives (step (atStart [0xC0E0, 0x1234] [] []))
      (fun t => t.ra == 0x1234 && t.pc == 0x0104 && t.psw == 0) = true := by decide

/-- 95_test_vectors.md, vector AM11: MOV 0x10(PC), RA. -/
theorem test_vector_am11 :
    gives (step (atStart [0xC2E0, 0x0010] [] [(0x0112, 0x1111), (0x0114, 0x2222)]))
      (fun t => t.ra == 0x1111 && t.pc == 0x0104 && t.psw == 0) = true := by decide

/-- 95_test_vectors.md, vector AM11b: MOV 0x10(PC), RA. -/
theorem test_vector_am11b :
    gives (step { atStart [0xC2E0, 0x0010] [] [(0x0112, 0x1111), (0x0114, 0x2222)] with cfg := { defaultConfig with relPcBiasTwo := true } })
      (fun t => t.ra == 0x2222 && t.pc == 0x0104 && t.psw == 0) = true := by decide

/-- 95_test_vectors.md, vector AM12: MOV @0x10(PC), RA. -/
theorem test_vector_am12 :
    gives (step (atStart [0xC3E0, 0x0010] [] [(0x0112, 0x3000), (0x3000, 0x7777)]))
      (fun t => t.ra == 0x7777 && t.pc == 0x0104 && t.psw == 0) = true := by decide

/-- 95_test_vectors.md, vector AM13: MOV -4(PC), RA. -/
theorem test_vector_am13 :
    gives (step (atStart [0xC2E0, 0xFFFC] [] [(0x00FE, 0x0BAD)]))
      (fun t => t.ra == 0x0BAD && t.pc == 0x0104 && t.psw == 0) = true := by decide

/-- 95_test_vectors.md, vector AM16: MOVB RA, -(SP). -/
theorem test_vector_am16 :
    gives (step (atStart [0x400E] [(.ra, 0x00AB)] [(0xF6FE, 0xEEDD)]))
      (fun t => t.sp == 0xF6FE && t.pc == 0x0102 && t.psw == 0x0001 && t.mem.read false 0xF6FE == 0xAB) = true := by decide

/-- 95_test_vectors.md, vector AM17: MOVB (SP)+, RA. -/
theorem test_vector_am17 :
    gives (step (atStart [0x42C0] [(.ra, 0x5500), (.sp, 0xF6FE)] [(0xF6FE, 0xEEDD)]))
      (fun t => t.ra == 0x55DD && t.sp == 0xF700 && t.pc == 0x0102 && t.psw == 0x0001) = true := by decide

/-- 95_test_vectors.md, vector AM18: MOV (SP)+, -(SP). -/
theorem test_vector_am18 :
    gives (step (atStart [0xC2CE] [(.sp, 0xF6FE)] [(0xF6FE, 0x1234)]))
      (fun t => t.pc == 0x0102 && t.psw == 0 && t.mem.read true 0xF6FE == 0x1234) = true := by decide

/-- 95_test_vectors.md, vector AM23: MOV 0x10(PC), 0x20(PC). -/
theorem test_vector_am23 :
    gives (step (atStart [0xC2F7, 0x0010, 0x0020] [] [(0x0112, 0x5A5A)]))
      (fun t => t.pc == 0x0106 && t.psw == 0 && t.mem.read true 0x0124 == 0x5A5A) = true := by decide

/-- 95_test_vectors.md, vector AM24: MOV RA, #0. -/
theorem test_vector_am24 :
    gives (step (atStart [0xC007, 0x0000] [(.ra, 0x4321)] []))
      (fun t => t.pc == 0x0104 && t.psw == 0 && t.mem.read true 0x0102 == 0x4321) = true := by decide

/-- 95_test_vectors.md, vector AM26: MOVB RA, SP. -/
theorem test_vector_am26 :
    gives (step (atStart [0x4006] [(.ra, 0x00FF)] []))
      (fun t => t.sp == 0xF7FE && t.pc == 0x0102 && t.psw == 0x0001) = true := by decide

/-- 95_test_vectors.md, vector BR1: MOV @#0x2ABC, RA. -/
theorem test_vector_br1 :
    gives (step (atStart [] [(.pc, 0x2000), (.psw, 0x5000)] [(0x7ABC, 0x0066), (0x7000, 0xC1E0), (0x7002, 0x2ABC)]))
      (fun t => t.ra == 0x0066 && t.pc == 0x2004 && t.psw == 20480) = true := by decide

/-- 95_test_vectors.md, vector BR4: MOV RA, @#0xF6FE. -/
theorem test_vector_br4 :
    gives (step (atStart [] [(.pc, 0x2000), (.psw, 0x5000), (.ra, 0x0077)] [(0x7000, 0xC00F), (0x7002, 0xF6FE)]))
      (fun t => t.pc == 0x2004 && t.psw == 20480 && t.mem.read true 0x46FE == 0x0077) = true := by decide

/-- 95_test_vectors.md, vector BR5: MOV @#0xC000, RA. -/
theorem test_vector_br5 :
    gives (step (atStart [] [(.pc, 0x2000), (.psw, 0x5000)] [(0x1000, 0x0ACE), (0x7000, 0xC1E0), (0x7002, 0xC000)]))
      (fun t => t.ra == 0x0ACE && t.pc == 0x2004 && t.psw == 20480) = true := by decide

/-- 95_test_vectors.md, vector O43: ICT RA. -/
theorem test_vector_o43 :
    gives (step { atStart [0x8080] [(.ra, 0x0001)] [(0xFF9C, 0x0000), (0xFF9E, 0x0900)] with cfg := { defaultConfig with ucode := .v10 } })
      (fun t => t.sps == 0xF7FC && t.pc == 0x0900 && t.psw == 0 && t.mem.read true 0xF7FE == 0x0102 && t.mem.read true 0xF7FC == 0x0000) = true := by decide

/-- 95_test_vectors.md, vector O44: SWBB (undefined). -/
theorem test_vector_o44 :
    gives (step (atStart [0x0560] [] [(0xFF9C, 0x0000), (0xFF9E, 0x0900)]))
      (fun t => t.sps == 0xF7FC && t.pc == 0x0900 && t.psw == 0 && t.mem.read true 0xF7FE == 0x0102 && t.mem.read true 0xF7FC == 0x0000) = true := by decide

/-- 95_test_vectors.md, vector S15: SLDL (RA). -/
theorem test_vector_s15 :
    gives (step (atStart [0x8208] [(.ra, 0x2000)] [(0xFF9C, 0x0000), (0xFF9E, 0x0900)]))
      (fun t => t.sps == 0xF7FC && t.pc == 0x0900 && t.psw == 0 && t.mem.read true 0xF7FE == 0x0102 && t.mem.read true 0xF7FC == 0x0000) = true := by decide

/-- 95_test_vectors.md, vector K1: RET RF. -/
theorem test_vector_k1 :
    gives (step (atStart [0x8605] [(.rf, 0x0204), (.sp, 0xF6FE)] [(0xF6FE, 0x1111)]))
      (fun t => t.rf == 0x1111 && t.sp == 0xF700 && t.pc == 0x0204 && t.psw == 0) = true := by decide

/-- 95_test_vectors.md, vector Z7: RTT. -/
theorem test_vector_z7 :
    gives (step (atStart [0x8005] [] []))
      (fun t => t.pc == 0x0102 && t.run == .halt && t.psw == 0) = true := by decide

/-- 96_test_vectors_system.md, vector A2: SMIP R0,#5. -/
theorem test_vector_a2 :
    gives (step { atStart [0x8987, 0x0005] [] [(0xFF94, 0x0000), (0xFF96, 0x0D00)] with m := ⟨0x00007FFF, 0, 0, 0⟩ })
      (fun t => t.sps == 0xF7FC && t.pc == 0x0D00 && t.mf.ovfl && t.psw == 0 && t.mem.read true 0xF7FE == 0x0104 && t.mem.read true 0xF7FC == 0x0000) = true := by decide

/-- 96_test_vectors_system.md, vector A11: DVIP R0,#0. -/
theorem test_vector_a11 :
    gives (step { atStart [0x8C87, 0x0000] [] [(0xFF94, 0x0000), (0xFF96, 0x0D00)] with m := ⟨0x00000014, 0, 0, 0⟩ })
      (fun t => t.sps == 0xF7FC && t.pc == 0x0D00 && t.mf.divz && t.psw == 0 && t.mem.read true 0xF7FE == 0x0104 && t.mem.read true 0xF7FC == 0x0000) = true := by decide

/-- 96_test_vectors_system.md, vector A24: CRPF R0,@#0x2000. -/
theorem test_vector_a24 :
    gives (step (atStart [0x8E0F, 0x2000] [] [(0xFF9C, 0x0000), (0xFF9E, 0x0900)]))
      (fun t => t.sps == 0xF7FC && t.pc == 0x0900 && t.psw == 0 && t.mem.read true 0xF7FE == 0x0102 && t.mem.read true 0xF7FC == 0x0000) = true := by decide

/-- 96_test_vectors_system.md, vector A29: SMIP R0,#5 with UPFOK = 0. -/
theorem test_vector_a29 :
    gives (step { atStart [0x8987, 0x0005] [] [(0xFF94, 0x0000), (0xFF96, 0x0D00)] with m := ⟨0x00000001, 0, 0, 0⟩, mf := ⟨true, false, false, false, false, false⟩, inp := { quietInputs with upfok := false } })
      (fun t => t.sps == 0xF7FC && t.pc == 0x0D00 && t.psw == 0 && t.mem.read true 0xF7FE == 0x0104 && t.mem.read true 0xF7FC == 0x0000) = true := by decide

/-- 96_test_vectors_system.md, vector A31: CRI R0,(SP)+ with UPFOK = 0. -/
theorem test_vector_a31 :
    gives (step { atStart [0x8E96] [(.sp, 0xF6FE)] [(0xFF94, 0x0000), (0xFF96, 0x0D00), (0xF6FE, 0x0007)] with inp := { quietInputs with upfok := false } })
      (fun t => t.sp == 0xF700 && t.sps == 0xF7FC && t.pc == 0x0D00 && t.psw == 0 && t.mem.read true 0xF7FE == 0x0102 && t.mem.read true 0xF7FC == 0x0000) = true := by decide

/-- 96_test_vectors_system.md, vector X1: MOV RA,-(SP). -/
theorem test_vector_x1 :
    gives (step (atStart [0xC00E] [(.sp, 0xF600), (.ra, 0x1234)] [(0xFF84, 0x0F00), (0xFF86, 0x0B00)]))
      (fun t => t.sp == 0xF5FE && t.sps == 0xF7FC && t.pc == 0x0B00 && t.psw == 0x0F00 && t.mem.read true 0xF7FE == 0x0102 && t.mem.read true 0xF7FC == 0x0000) = true := by decide

/-- 96_test_vectors_system.md, vector X2: MOV (SP)+,RA. -/
theorem test_vector_x2 :
    gives (step (atStart [0xC2C0] [(.sp, 0xF800)] [(0xFF84, 0x0000), (0xFF86, 0x0B00)]))
      (fun t => t.sp == 0xF802 && t.sps == 0xF7FC && t.pc == 0x0B00 && t.psw == 0 && t.mem.read true 0xF7FE == 0x0102 && t.mem.read true 0xF7FC == 0x0000) = true := by decide

/-- 96_test_vectors_system.md, vector X4: MOV (RA),RB. -/
theorem test_vector_x4 :
    gives (step (atStart [0xC101] [(.ra, 0x2001)] [(0xFF88, 0x0000), (0xFF8A, 0x0A00)]))
      (fun t => t.sps == 0xF7FC && t.pc == 0x0A00 && t.psw == 0 && t.mem.read true 0xF7FE == 0x0102 && t.mem.read true 0xF7FC == 0x0000) = true := by decide

/-- 96_test_vectors_system.md, vector X6: MOV @#0x4000,RB. -/
theorem test_vector_x6 :
    gives (step { atStart [0xC1E1, 0x4000] [(.rb, 0x1111)] [(0xFF8C, 0x0000), (0xFF8E, 0x0E00)] with cfg := { defaultConfig with memMap := [⟨0, 0x4000, .ram⟩, ⟨32768, 32768, .ram⟩] } })
      (fun t => t.sps == 0xF7FC && t.pc == 0x0E00 && t.psw == 0 && t.mem.read true 0xF7FE == 0x0104 && t.mem.read true 0xF7FC == 0x0000) = true := by decide

/-- 96_test_vectors_system.md, vector X8: EXC @#0x2000,@#0x4000. -/
theorem test_vector_x8 :
    gives (step { atStart [0xC5EF, 0x2000, 0x4000] [] [(0x2000, 0x00AA), (0xFF8C, 0x0000), (0xFF8E, 0x0E00)] with cfg := { defaultConfig with memMap := [⟨0, 0x4000, .ram⟩, ⟨32768, 32768, .ram⟩] } })
      (fun t => t.sps == 0xF7FC && t.pc == 0x0E00 && t.psw == 0 && t.mem.read true 0xF7FE == 0x0106 && t.mem.read true 0xF7FC == 0x0000) = true := by decide

/-- 96_test_vectors_system.md, vector P1: NOP with B = 1. -/
theorem test_vector_p1 :
    gives (step (atStart [0x0002] [(.psw, 0x0080)] [(0xFF98, 0x0000), (0xFF9A, 0x0C00)]))
      (fun t => t.sps == 0xF7FC && t.pc == 0x0C00 && t.psw == 0x0000 && t.mem.read true 0xF7FE == 0x0102 && t.mem.read true 0xF7FC == 0x0080) = true := by decide

/-- 96_test_vectors_system.md, vector P2: RTT loading B = 1. -/
theorem test_vector_p2 :
    gives (step (atStart [0x8005] [(.sps, 0xF7FC)] [(0xF7FC, 0x0080), (0xF7FE, 0x0200), (0xFF98, 0x0000), (0xFF9A, 0x0C00)]))
      (fun t => t.sps == 0xF800 && t.pc == 0x0200 && t.psw == 0x0080) = true := by decide

/-- 96_test_vectors_system.md, vector P4: RTT with B = 1 to a PSW with B = 0. -/
theorem test_vector_p4 :
    gives (step (atStart [0x8005] [(.psw, 0x0080), (.sps, 0xF7FC)] [(0xF7FC, 0x0003), (0xF7FE, 0x0200), (0xFF98, 0x0000), (0xFF9A, 0x0C00)]))
      (fun t => t.pc == 0x0C00 && t.psw == 0x0000 && t.mem.read true 0xF7FE == 0x0200 && t.mem.read true 0xF7FC == 0x0003) = true := by decide

/-- 96_test_vectors_system.md, vector P5: TRAP0 with B = 1. -/
theorem test_vector_p5 :
    gives (step (atStart [0x8018] [(.psw, 0x0080)] [(0xFFA0, 0x0000), (0xFFA2, 0x2000), (0xFF98, 0x0000), (0xFF9A, 0x0C00)]))
      (fun t => t.sps == 0xF7F8 && t.pc == 0x0C00 && t.psw == 0x0000 && t.mem.read true 0xF7FE == 0x0102 && t.mem.read true 0xF7FC == 0x0080 && t.mem.read true 0xF7FA == 0x2000 && t.mem.read true 0xF7F8 == 0x0000) = true := by decide

/-- 96_test_vectors_system.md, vector P6: invalid code with B = 1. -/
theorem test_vector_p6 :
    gives (step (atStart [0x4800] [(.psw, 0x0080)] [(0xFF9C, 0x0000), (0xFF9E, 0x0900), (0xFF98, 0x0000), (0xFF9A, 0x0C00)]))
      (fun t => t.sps == 0xF7FC && t.pc == 0x0900 && t.psw == 0x0000 && t.mem.read true 0xF7FE == 0x0102 && t.mem.read true 0xF7FC == 0x0080) = true := by decide

/-- 96_test_vectors_system.md, vector P7: HALT with B = 1. -/
theorem test_vector_p7 :
    gives (step (atStart [0x0000] [(.psw, 0x0080)] [(0xFF98, 0x0000), (0xFF9A, 0x0C00)]))
      (fun t => t.pc == 0x0102 && t.run == .halt && t.psw == 128) = true := by decide

/-- 96_test_vectors_system.md, vector P8: WAIT with B = 1. -/
theorem test_vector_p8 :
    gives (step (atStart [0x0001] [(.psw, 0x0080)] [(0xFF98, 0x0000), (0xFF9A, 0x0C00)]))
      (fun t => t.sps == 0xF7FC && t.pc == 0x0C00 && t.psw == 0x0000 && t.mem.read true 0xF7FE == 0x0102 && t.mem.read true 0xF7FC == 0x0080) = true := by decide

/-- 96_test_vectors_system.md, vector I1: NOP, PI = 0x0020. -/
theorem test_vector_i1 :
    gives (step { atStart [0x0002] [] [(0xFFD4, 0x0600), (0xFFD6, 0x3000)] with inp := { quietInputs with pi := 0x0020 } })
      (fun t => t.sps == 0xF7FC && t.pc == 0x3000 && t.psw == 0x0600 && t.mem.read true 0xF7FE == 0x0102 && t.mem.read true 0xF7FC == 0x0000) = true := by decide

/-- 96_test_vectors_system.md, vector I3: NOP, PI = 0x0020, LEVEL = 6. -/
theorem test_vector_i3 :
    gives (step { atStart [0x0002] [(.psw, 0x0600)] [] with inp := { quietInputs with pi := 0x0020 } })
      (fun t => t.pc == 0x0102 && t.psw == 1536) = true := by decide

/-- 96_test_vectors_system.md, vector I5: NOP, PI = 0x8000, MK = 0x7FFF, LEVEL = 15. -/
theorem test_vector_i5 :
    gives (step { atStart [0x0002] [(.imk, 0x7FFF), (.psw, 0x0F00)] [(0xFFFC, 0x0F00), (0xFFFE, 0x3F00)] with inp := { quietInputs with pi := 0x8000 } })
      (fun t => t.sps == 0xF7FC && t.pc == 0x3F00 && t.psw == 3840 && t.mem.read true 0xF7FE == 0x0102 && t.mem.read true 0xF7FC == 0x0F00) = true := by decide

/-- 96_test_vectors_system.md, vector I7: NOP, PI = 0x0024, level-5 vector with LEVEL = 0. -/
theorem test_vector_i7 :
    gives (step { atStart [0x0002] [] [(0xFFD4, 0x0000), (0xFFD6, 0x3000), (0xFFC8, 0x0300), (0xFFCA, 0x3200)] with inp := { quietInputs with pi := 0x0024 } })
      (fun t => t.sps == 0xF7F8 && t.pc == 0x3200 && t.psw == 0x0300 && t.mem.read true 0xF7FE == 0x0102 && t.mem.read true 0xF7FC == 0x0000 && t.mem.read true 0xF7FA == 0x3000 && t.mem.read true 0xF7F8 == 0x0000) = true := by decide

/-- 96_test_vectors_system.md, vector I8: NOP with B = 1, PI = 0x0020. -/
theorem test_vector_i8 :
    gives (step { atStart [0x0002] [(.psw, 0x0080)] [(0xFF98, 0x0000), (0xFF9A, 0x0C00), (0xFFD4, 0x0600), (0xFFD6, 0x3000)] with inp := { quietInputs with pi := 0x0020 } })
      (fun t => t.sps == 0xF7F8 && t.pc == 0x3000 && t.psw == 0x0600 && t.mem.read true 0xF7FE == 0x0102 && t.mem.read true 0xF7FC == 0x0080 && t.mem.read true 0xF7FA == 0x0C00 && t.mem.read true 0xF7F8 == 0x0000) = true := by decide

/-- 96_test_vectors_system.md, vector I9: CNM 6, PI = 0x0020. -/
theorem test_vector_i9 :
    gives (step { atStart [0x7E06] [] [] with inp := { quietInputs with pi := 0x0020 } })
      (fun t => t.pc == 0x0102 && t.psw == 0x0600) = true := by decide

/-! ### One step, by hand from the rules -/

/-- Byte forms (41_two_operand.md R202, R204, R206 to R209, R211, R212). -/
theorem test_two_operand_bytes :
    ([(0x1401, 0x00FF, 0x1200, 0x0008, 0x1200, 0x000A), (0x1C01, 0x0001, 0x1280, 0x0008, 0x127E, 0x0004),
      (0x2401, 0x00F0, 0xAB8F, 0x000C, 0xAB80, 0x0009), (0x2801, 0x000F, 0x1270, 0x0000, 0x127F, 0x0000),
      (0x2C01, 0x000F, 0x12FF, 0x0000, 0x12F0, 0x0001), (0x3001, 0x00FF, 0x12FF, 0x0000, 0x1200, 0x0002),
      (0x3801, 0x000F, 0x121F, 0x0000, 0x121F, 0x0002), (0x3C01, 0x000F, 0x12F0, 0x0000, 0x12F0, 0x0001)] :
        List (Word × Word × Word × Word × Word × Word)).all (fun x =>
      gives (step (atStart [x.1] [(.ra, x.2.1), (.rb, x.2.2.1), (.psw, x.2.2.2.1)] [])) (fun t =>
        t.rb == x.2.2.2.2.1 && t.psw == x.2.2.2.2.2)) = true := by decide

/-- Byte forms (42_one_operand_arith.md R233 to R235, R240, R241). -/
theorem test_one_operand_bytes :
    ([(0x0060, 0x1200, 0x0000, 0x12FF, 0x0001), (0x0080, 0x127E, 0x0000, 0x1280, 0x0005),
      (0x00A0, 0x1201, 0x0000, 0x12FF, 0x0001), (0x0140, 0x12FF, 0x0008, 0x1200, 0x000A),
      (0x0160, 0x1200, 0x0008, 0x12FF, 0x0009)] : List (Word × Word × Word × Word × Word)).all (fun x =>
      gives (step (atStart [x.1] [(.ra, x.2.1), (.psw, x.2.2.1)] [])) (fun t =>
        t.ra == x.2.2.2.1 && t.psw == x.2.2.2.2)) = true := by decide

/-- Branches taken and not taken (46_parameter.md R343 to R359). -/
theorem test_branches :
    ([(0x7202, 0x00, 0x08), (0x7302, 0x04, 0x00), (0x7402, 0x00, 0x04), (0x7502, 0x02, 0x00), (0x7702, 0x01, 0x00),
      (0x7802, 0x00, 0x01), (0xF902, 0x00, 0x40), (0xFA02, 0x20, 0x00), (0xFB02, 0x00, 0x20), (0xFC02, 0x10, 0x00),
      (0xF102, 0x01, 0x05), (0xF302, 0x02, 0x00)] : List (Word × Word × Word)).all (fun x =>
      gives (step (atStart [x.1] [(.psw, x.2.1)] [])) (fun t => t.pc == 0x0106) &&
      gives (step (atStart [x.1] [(.psw, x.2.2)] [])) (fun t => t.pc == 0x0102)) = true := by decide

/-- The second names do what the first names do (45_zero_operand.md R327; 46_parameter.md R362, R363). -/
theorem test_second_names :
    gives (exec .rti (atStart [] [(.sps, 0xF7FC)] [(0xF7FC, 0x0302), (0xF7FE, 0x0150)])) (fun t =>
      t.psw == 0x0302 && t.pc == 0x0150 && t.sps == 0xF800) = true ∧
    gives (exec (.dhs 2) (atStart [] [] [])) (fun t => t.pc == 0x0104) = true ∧
    gives (exec (.dlo 2) (atStart [] [] [])) (fun t => t.pc == 0x0100) = true := by decide

/-- The other ASTROM codes with UPFOK = 0 end in the ASTROM trap, past their extension words (47_astrom.md R386). -/
theorem test_astrom_off :
    ([0x8800, 0x0820, 0x88C1, 0x08A0, 0x0901, 0x8A22, 0x0A43, 0x8B04, 0x0B20, 0x8C00, 0x0C01, 0x8D20, 0x0D21, 0x8D82,
      0x0D81, 0x0E02] : List Word).all (fun w =>
      gives (step { atStart [w] [] [(0xFF96, 0x0D00)] with inp := { quietInputs with upfok := false } }) (fun t =>
        t.pc == 0x0D00 && t.mem.read true 0xF7FE == 0x0102)) = true := by decide

/-- 95_test_vectors.md E1: a return with SPS at its reset value stops the CPU. -/
theorem test_pop_empty_system_stack :
    gives (step (atStart [0x8005] [] [])) (fun t => t.run == .halt && t.sps == 0xF800) = true := by decide

/-- 96_test_vectors_system.md RS3: EXECUTE after a reset goes to RUN, then the instruction at PC runs. -/
theorem test_execute_then_run :
    let s : State := { atStart [] [(.pc, 0x1000), (.psw, 0x0008)] [(0x1000, 0x8040)] with
      run := .halt, inp := { quietInputs with execute := true } }
    gives (andThen (step s) step) (fun t => t.run == .run && t.ra == 1 && t.pc == 0x1002 && t.psw == 0x0008) =
      true := by decide

/-- 96_test_vectors_system.md I11: level 0 ends a wait, and the address after WAIT is stacked. -/
theorem test_wait_ended :
    gives (step { atStart [0x0001] [(.pc, 0x0102)] [(0xFFC0, 0x0100), (0xFFC2, 0x3100)] with
      run := .wait, inp := { quietInputs with pi := 1 } }) (fun t =>
        t.run == .run && t.pc == 0x3100 && t.psw == 0x0100 && t.mem.read true 0xF7FE == 0x0102) = true := by decide

/-- The panel edits in HALT; single step runs one instruction and stops again (60_exceptions.md R468, R470). -/
theorem test_panel :
    gives (step { atStart [0x8040] [] [] with run := .halt, inp := { quietInputs with edits := [.reg .sp 0x1235] } })
      (fun t => t.run == .halt && t.sp == 0x1234 && t.pc == 0x0100) = true ∧
    gives (step { atStart [0x8040] [] [] with run := .halt, inp := { quietInputs with stepOne := true } })
      (fun t => t.run == .halt && t.ra == 1 && t.pc == 0x0102) = true := by decide

/-- A device register read by the program (20_memory.md R85): one read event. -/
theorem test_device_read :
    gives (step (atStart [0xC1E0, 0xF900] [] [])) (fun t => t.events == [.devRead 0xF900 true]) = true := by decide

/-- 20_memory.md R91: a store of the program into the next word is noted with the old bytes; an edit by another bus master
and the pushes of an entry are not. -/
theorem test_prefetch :
    gives (step (atStart [0x80E8, 0x8040] [(.ra, 0x0102)] [])) (fun t =>
      t.stale == [(0x0102, 0x40), (0x0103, 0x80)] && t.stored == [] && t.mem.read true 0x0102 == 0) = true ∧
    gives (step { atStart [0x0002, 0x8040] [] [] with admp := [[(0x0102, 0x60)]] }) (fun t =>
      t.stale == [] && t.mem.read true 0x0102 == 0x8060) = true ∧
    gives (step (atStart [] [(.pc, 0xF7F8)] [(0xF7F8, 0x8018), (0xFFA2, 0x0900)])) (fun t =>
      t.stale == [] && t.pc == 0x0900 && t.mem.read true 0xF7FE == 0xF7FA) = true := by decide

/-- 20_memory.md R82, R83: `BusResponds` and `BusParityError` by address, width and direction: STZ at 0x2000 times out
where word writes there get no answer, and MOV from there meets a parity error where word reads do. -/
theorem test_bus_oracles :
    gives (step { atStart [0x80E8] [(.ra, 0x2000)] [(0x2000, 0x1234), (0xFF8E, 0x0D00)] with
      cfg := { defaultConfig with silentWrites := [⟨0x2000, true⟩] } }) (fun t =>
        t.pc == 0x0D00 && t.mem.read true 0x2000 == 0x1234) = true ∧
    gives (step { atStart [0xC101] [(.ra, 0x2000), (.rb, 0x5555)] [(0x2000, 0x1234), (0xFF92, 0x0E00)] with
      cfg := { defaultConfig with badParity := [⟨0x2000, true⟩] } }) (fun t => t.pc == 0x0E00 && t.rb == 0x5555) =
        true ∧
    gives (step { atStart [0xC101] [(.ra, 0x2000)] [(0x2000, 0x1234)] with
      cfg := { defaultConfig with badParity := [⟨0x2000, false⟩] } }) (fun t => t.rb == 0x1234) = true := by decide

/-- Another `PSW_LAYOUT` (90_conflicts.md C1): B in bit 15, BASE in bits 14-12 and 7. -/
theorem test_psw_layout :
    let l : PswLayout := ⟨.bit14, .bit13, .bit12, .bit7, .bit15⟩
    pswB l 0x8000 = true ∧ pswBase l 0x8000 = 0 ∧ pswBase l 0x2080 = 5 ∧ pswB l 0x7FFF = false := by decide

/-- `withFetchWord` right after reset: the next step runs exactly that word. -/
theorem test_with_fetch_word :
    gives (step (State.reset.withFetchWord 16 0x8040)) (fun t => t.ra == 1 && t.pc == 2) = true ∧
    gives (step (State.reset.withFetchWord 48 0x1234BEEF90E7)) (fun t => t.pc == 6 && t.mem.read true 4 == 0xD123) =
      true := by decide

/-! ### Witnesses of hypotheses -/

/-- RUN at 0x0100, where the words 0x2002 and 0xC000 stand; RA = 0x2000, RB = 0x2001, RC = 0x4000. -/
def s0 : State := atStart [0x2002, 0xC000] [(.ra, 0x2000), (.rb, 0x2001), (.rc, 0x4000)]
  [(0x2000, 0x1234), (0x2002, 0x3000), (0x3000, 0x0007), (0xF6FE, 0x1111)]

/-- The same with nothing at 0x4000..0x7FFF and with read-only memory from 0x8000 to 0x8FFF. -/
def s1 : State := { s0 with cfg := { defaultConfig with
  memMap := [⟨0, 0x4000, .ram⟩, ⟨0x8000, 0x1000, .rom⟩, ⟨0x9000, 0x6800, .ram⟩, ⟨0xF800, 0x0780, .device⟩,
    ⟨0xFF80, 0x0080, .ram⟩] } }

/-- ASTROM off. -/
def s2 : State := { s0 with inp := { quietInputs with upfok := false } }

/-- Memory at 0x2000 that can be read and not written; both bytes of its word are negative. -/
def s3 : State := { s0 with
  mem := s0.mem.write true 0x2000 0x8080
  cfg := { defaultConfig with silentWrites := [⟨0x2000, true⟩, ⟨0x2001, false⟩] } }

theorem s0_calm : s0.calm := ⟨rfl, rfl, rfl, rfl, rfl⟩

theorem witness_DecodeOfEncode : defaultConfig.wf = true ∧ v10.wf = true ∧ Instr.rti.wf v10 = true ∧
    (Instr.sldl (.direct .re)).wf v10 = true ∧ (Instr.ict .absolute).wf defaultConfig = true := by decide

theorem witness_UnassignedWordsAreListed : unassignedWord 0x4800 = true ∧ unassignedWord 0xFFFF = true ∧
    decodeAssigned v10 0x8080 = some (.ict (.direct .ra)) ∧ (Instr.ict (.direct .ra)).isAmpersand = true ∧
    v10.ucode = .v10 := by decide

theorem witness_LongOperandsMustBePairs :
    [(0x8200, Instr.sldl (.direct .ra)), (0x8204, .sldl (.direct .re)), (0x8205, .sldl (.direct .rf)),
      (0x8208, .sldl (.indirect .ra)), (0x9001, .add (.direct .ra) (.direct .rb))].all (fun x =>
        decide (decodeAssigned defaultConfig x.1 = some x.2) && x.2.inVersion defaultConfig) = true ∧
    (Instr.sldl (.direct .ra)).shape = .long (.direct .ra) ∧
    (Instr.sldl (.direct .rf)).shape = .long (.direct .rf) ∧
    (∀ p, (Instr.add (.direct .ra) (.direct .rb)).shape ≠ .long p) := ⟨by decide, rfl, rfl, fun _ => nofun⟩

theorem witness_DontCareBitsAreIgnored : (0x7A#8) ∈ [0x7A#8, 0x7B#8, 0x7C#8, 0x7D#8] ∧
    (0x7D#8) ∈ [0x7A#8, 0x7B#8, 0x7C#8, 0x7D#8] := by decide

theorem witness_MemoryBytesAndWords : Memory.wf s0.mem = true ∧ (65535 < 65536) ∧
    (0x0000 : Word).getLsbD 0 = false ∧ (0xFFFE : Word).getLsbD 0 = false := by decide

theorem witness_CanonicalMemoriesAreEqual : Memory.wf [] = true ∧ Memory.wf ([(0, 1), (65535, 2)] : Memory) = true ∧
    (∀ a, a < 65536 → Memory.readByte [] a = Memory.readByte [] a) := ⟨rfl, by decide, fun _ _ => rfl⟩

theorem witness_RelocationAddsBase : 0xF800 ≤ (0xF800 : Word).toNat ∧ (0xF7FF : Word).toNat < 0xF800 := by decide

theorem witness_AccessChecksInOrder :
    (true && (0x2001 : Word).getLsbD 0) = true ∧ (false && (0x2001 : Word).getLsbD 0) = false ∧
    (true && (0x4000 : Word).getLsbD 0) = false ∧ s1.admp = [] ∧ s3.admp = [] ∧
    Config.answers s1.cfg false true (s1.reloc 0x4000) = none ∧
    Config.answers s1.cfg true false (s1.reloc 0x7FFF) = none ∧
    Config.answers s3.cfg true true (s3.reloc 0x2000) = none ∧
    Config.answers s3.cfg false true (s3.reloc 0x2000) = some .ram ∧
    Config.answers s3.cfg true false (s3.reloc 0x2000) = some .ram ∧
    Config.answers s1.cfg false true (s1.reloc 0x8FFE) = some .rom ∧
    Config.answers s1.cfg true true (s1.reloc 0x8000) = some .rom ∧
    Config.answers s1.cfg false false (s1.reloc 0xF800) = some .device ∧
    Config.answers s1.cfg true true (s1.reloc 0xFF7E) = some .device := by decide

theorem witness_StackLimits : 0xF7FF < (0xF800 : Word).toNat ∧ (0xF5FE : Word).toNat < s0.lp.toNat ∧
    (0xF7FF : Word).getLsbD 0 = true ∧ (0xF7FE : Word).toNat ≤ 0xF7FF ∧ s0.lp.toNat ≤ (0xF600 : Word).toNat ∧
    (0xF600 : Word).getLsbD 0 = false := by decide

/-- A system stack with nothing on the bus. -/
theorem witness_StackLimits_bus :
    let s : State := { s1 with lp := 0x4000 }
    s.lp.toNat ≤ (0x4000 : Word).toNat ∧ (∃ t, busRead true 0x4000 s = .error (.trap .busTimeout) t) ∧
    (∃ t, busWrite true true 0x4000 7 s = .error (.trap .busTimeout) t) := ⟨by decide, ⟨_, rfl⟩, ⟨_, rfl⟩⟩

theorem witness_StackAndStreamAccesses : s0.calm ∧ s0.memoryAt (s0.relocStream 0x0101) = true ∧
    (0xF7FF : Word).toNat ≤ 0xF7FF ∧ s0.lp.toNat ≤ (0xF600 : Word).toNat ∧ s0.ramAt 0xF600 = true ∧
    s0.memoryAt 0xF7FF = true ∧ s0.ramAt 0xF7FF = true ∧ s0.pc.getLsbD 0 = false ∧
    s0.memoryAt (s0.relocStream s0.pc) = true := ⟨s0_calm, by decide⟩

theorem witness_RegisterBytesAndWords : GReg.ra ≠ GReg.rf := by decide

theorem witness_RegisterPairs :
    (GReg.ra, GReg.rb, Pair.ab) ∈ [(GReg.ra, GReg.rb, Pair.ab), (.rc, .rd, .cd), (.re, .rf, .ef)] ∧
    (GReg.re, GReg.rf, Pair.ef) ∈ [(GReg.ra, GReg.rb, Pair.ab), (.rc, .rd, .cd), (.re, .rf, .ef)] ∧
    s0.cfg.longHighIsDeclared = true := by decide

theorem witness_LocateModes :
    (∃ d t p u, fetch16 s0 = .ok d t ∧ memRead true (t.getG .ra + d) t = .ok p u) ∧
    (∃ d t e u, fetch16 s0 = .ok d t ∧ memRead true (t.getG .rb + d) t = .error e u) ∧
    (∃ d t p u, fetch16 s0 = .ok d t ∧ memRead true (s0.pc + (if s0.cfg.relPcBiasTwo then 2 else 0) + d) t = .ok p u) ∧
    (∃ e t, fetch16 { s1 with pc := 0x4000 } = .error e t) ∧
    Operand.direct .rb ∉ [Operand.direct .ra, .direct .rc, .direct .re] :=
  ⟨⟨_, _, _, _, rfl, rfl⟩, ⟨_, _, _, _, rfl, rfl⟩, ⟨_, _, _, _, rfl, rfl⟩, ⟨_, _, rfl⟩, by decide⟩

/-- The sizes of AddFlagsMeaning, ArithmeticResultsAndFlags, BranchesAfterCompare, OneOperandArithmetic,
ShiftsBitByBit, TwoOperandInstructions, OneOperandInstructions and StoreCompareAbs, and the end bits of the shifts. -/
theorem witness_AddFlagsMeaning : (8 = 8 ∨ 8 = 16) ∧ (16 = 8 ∨ 16 = 16) := by decide

theorem witness_ArithmeticResultsAndFlags : (8 = 8 ∨ 8 = 16) ∧ (16 = 8 ∨ 16 = 16) := by decide

theorem witness_BranchesAfterCompare : (8 = 8 ∨ 8 = 16) ∧ (16 = 8 ∨ 16 = 16) := by decide

theorem witness_OneOperandArithmetic : (8 = 8 ∨ 8 = 16) ∧ (16 = 8 ∨ 16 = 16) := by decide

theorem witness_ShiftsBitByBit : (32 = 8 ∨ 32 = 16 ∨ 32 = 32) ∧ (16 = 8 ∨ 16 = 16) ∧ 0 < 8 ∧ 31 < 32 ∧
    ((shSld : ShiftRule 8), false, true) ∈ [((shSld : ShiftRule 8), false, true), (shSdc, true, false)] ∧
    ((shSle : ShiftRule 8), false, true) ∈ [((shSle : ShiftRule 8), false, true), (shSec, false, false)] :=
  ⟨by decide, by decide, by decide, by decide, .head _, .head _⟩

theorem witness_TwoOperandInstructions :
    (∃ sv u ld v dv w t, readOperand 16 (.indirect .ra) s0 = .ok sv u ∧ locate .absolute u = .ok ld v ∧
      readLoc 16 ld v = .ok dv w ∧ writeLoc 16 ld (aluAdd sv dv w.psw).1 w = .ok () t) ∧
    (∃ sv u ld v dv w t, readOperand 8 (.indirect .rb) s0 = .ok sv u ∧ locate .autodec u = .ok ld v ∧
      readLoc 8 ld v = .ok dv w ∧ writeLoc 8 ld (aluAdd sv dv w.psw).1 w = .ok () t) ∧
    (∃ sv u dv t, readOperand 16 .immediate s0 = .ok sv u ∧ readOperand 16 .absolute u = .ok dv t) ∧
    (∃ sv u dv t, readOperand 8 .immediate s0 = .ok sv u ∧ readOperand 8 .stackTop u = .ok dv t) :=
  ⟨⟨_, _, _, _, _, _, _, rfl, rfl, rfl, rfl⟩, ⟨_, _, _, _, _, _, _, rfl, rfl, rfl, rfl⟩, ⟨_, _, _, _, rfl, rfl⟩,
    ⟨_, _, _, _, rfl, rfl⟩⟩

/-- Operands read, and destinations located that are not read. -/
theorem witness_OperandFaultsTrap :
    (∃ u, readOperand 16 (.indirect .rb) s0 = .error (.trap .oddAddress) u) ∧
    (∃ sv u v, readOperand 16 .immediate s1 = .ok sv u ∧
      readOperand 16 (.indirect .rc) u = .error (.trap .busTimeout) v) ∧
    (∃ u, readOperand 8 (.indirect .rc) s1 = .error (.trap .busTimeout) u) ∧
    (∃ sv u v, readOperand 8 .immediate { s0 with sp := 0xF5FE } = .ok sv u ∧
      readOperand 8 .stackTop u = .error (.trap .stackLimit) v) ∧
    (∃ sv u v, readOperand 16 .immediate { s1 with pc := 0x3FFE } = .ok sv u ∧
      locate .absolute u = .error (.trap .busTimeout) v) ∧
    (∃ sv u v, readOperand 8 .immediate { s1 with pc := 0x3FFE } = .ok sv u ∧
      locate .absolute u = .error (.trap .busTimeout) v) ∧
    (∃ u, locate .absolute { s1 with pc := 0x4000 } = .error (.trap .busTimeout) u) ∧
    pairOf (.direct .rb) = none ∧ pairOf .absolute = none ∧
    (isAccessFault .parity && decide (Trap.parity ∈ s0.cfg.trapPcOpen)) = false :=
  ⟨⟨_, rfl⟩, ⟨_, _, _, rfl, rfl⟩, ⟨_, rfl⟩, ⟨_, _, _, rfl, rfl⟩, ⟨_, _, _, rfl, rfl⟩, ⟨_, _, _, rfl, rfl⟩, ⟨_, rfl⟩,
    rfl, rfl, by decide⟩

/-- Destinations that can be read and not written, and destinations that are not read. -/
theorem witness_OperandFaultsTrap_write :
    (∃ sv u ld v dv w t, readOperand 16 (.direct .rd) s3 = .ok sv u ∧ locate (.indirect .ra) u = .ok ld v ∧
      readLoc 16 ld v = .ok dv w ∧ writeLoc 16 ld (aluAdd sv dv w.psw).1 w = .error (.trap .busTimeout) t) ∧
    (∃ sv u ld v dv w t, readOperand 8 (.direct .rd) s3 = .ok sv u ∧ locate (.indirect .rb) u = .ok ld v ∧
      readLoc 8 ld v = .ok dv w ∧ writeLoc 8 ld (aluAdd sv dv w.psw).1 w = .error (.trap .busTimeout) t) ∧
    (∃ sv u ld v t, readOperand 16 .immediate s0 = .ok sv u ∧ locate (.indirect .rb) u = .ok ld v ∧
      writeLoc 16 ld sv v = .error (.trap .oddAddress) t) ∧
    (∃ sv u ld v t, readOperand 8 .immediate s1 = .ok sv u ∧ locate (.indirect .rc) u = .ok ld v ∧
      writeLoc 8 ld sv v = .error (.trap .busTimeout) t) ∧
    (∃ ls u sv v ld w dv x t, locate (.indirect .ra) s3 = .ok ls u ∧ readLoc 16 ls u = .ok sv v ∧
      locate (.direct .rd) v = .ok ld w ∧ readLoc 16 ld w = .ok dv x ∧
      writeLoc 16 ls dv x = .error (.trap .busTimeout) t) ∧
    (∃ ls u sv v ld w dv x y t, locate (.direct .rd) s3 = .ok ls u ∧ readLoc 16 ls u = .ok sv v ∧
      locate (.indirect .ra) v = .ok ld w ∧ readLoc 16 ld w = .ok dv x ∧ writeLoc 16 ls dv x = .ok () y ∧
      writeLoc 16 ld sv y = .error (.trap .busTimeout) t) ∧
    (∃ ls u sv v ld w dv x t, locate (.indirect .rb) s3 = .ok ls u ∧ readLoc 8 ls u = .ok sv v ∧
      locate (.direct .rd) v = .ok ld w ∧ readLoc 8 ld w = .ok dv x ∧
      writeLoc 8 ls dv x = .error (.trap .busTimeout) t) ∧
    (∃ ls u sv v ld w dv x y t, locate (.direct .rd) s3 = .ok ls u ∧ readLoc 8 ls u = .ok sv v ∧
      locate (.indirect .rb) v = .ok ld w ∧ readLoc 8 ld w = .ok dv x ∧ writeLoc 8 ls dv x = .ok () y ∧
      writeLoc 8 ld sv y = .error (.trap .busTimeout) t) ∧
    (∃ ls u sv v dv w t x, locate (.indirect .ra) s3 = .ok ls u ∧ readLoc 16 ls u = .ok sv v ∧
      readOperand 16 .immediate v = .ok dv w ∧ writeLoc 16 ls (sv - 1) w = .error (.trap .busTimeout) t ∧
      writeLoc 16 ls w.pc w = .error (.trap .busTimeout) x) :=
  ⟨⟨_, _, _, _, _, _, _, rfl, rfl, rfl, rfl⟩, ⟨_, _, _, _, _, _, _, rfl, rfl, rfl, rfl⟩,
    ⟨_, _, _, _, _, rfl, rfl, rfl⟩, ⟨_, _, _, _, _, rfl, rfl, rfl⟩,
    ⟨_, _, _, _, _, _, _, _, _, rfl, rfl, rfl, rfl, rfl⟩, ⟨_, _, _, _, _, _, _, _, _, _, rfl, rfl, rfl, rfl, rfl, rfl⟩,
    ⟨_, _, _, _, _, _, _, _, _, rfl, rfl, rfl, rfl, rfl⟩, ⟨_, _, _, _, _, _, _, _, _, _, rfl, rfl, rfl, rfl, rfl, rfl⟩,
    ⟨_, _, _, _, _, _, _, _, rfl, rfl, rfl, rfl, rfl⟩⟩

/-- The same for instructions of one operand. -/
theorem witness_OperandFaultsTrap_one :
    (∃ ld u dv v t, locate (.indirect .ra) s3 = .ok ld u ∧ readLoc 16 ld u = .ok dv v ∧ dv.msb = true ∧
      writeLoc 16 ld (-dv) v = .error (.trap .busTimeout) t ∧
      ∃ w, writeLoc 16 ld (aluNeg dv v.psw).1 v = .error (.trap .busTimeout) w) ∧
    (∃ ld u dv v t, locate (.indirect .rb) s3 = .ok ld u ∧ readLoc 8 ld u = .ok dv v ∧ dv.msb = true ∧
      writeLoc 8 ld (-dv) v = .error (.trap .busTimeout) t ∧
      ∃ w, writeLoc 8 ld (aluNeg dv v.psw).1 v = .error (.trap .busTimeout) w) ∧
    (∃ ld u t v w, locate (.indirect .rc) s1 = .ok ld u ∧ s1.upfok = true ∧
      writeLoc 16 ld (aluStz u.psw).1 u = .error (.trap .busTimeout) t ∧
      writeLoc 8 ld (aluStz u.psw).1 u = .error (.trap .busTimeout) v ∧
      writeLoc 16 ld u.lp u = .error (.trap .busTimeout) w) ∧
    (∃ ld u t v w, locate (.indirect .rc) s1 = .ok ld u ∧
      writeLoc 16 ld u.imk u = .error (.trap .busTimeout) t ∧ writeLoc 16 ld u.sps u = .error (.trap .busTimeout) v ∧
      writeLoc 8 ld (codesByte u.mf true) u = .error (.trap .busTimeout) w) ∧
    (∃ ld u t, locate (.indirect .rc) { s1 with inp := s2.inp } = .ok ld u ∧ s2.upfok = false ∧
      writeLoc 8 ld (Config.sfgmbAbsent u.freeCount ++ 0#1) { u with freeCount := u.freeCount + 1 } =
        .error (.trap .busTimeout) t) ∧
    (∃ ld u t, locate (.indirect .rc) s1 = .ok ld u ∧
      writeLoc 16 ld ((s1.getM .r0).extractLsb' 0 16) u = .error (.trap .busTimeout) t) ∧
    (∃ ld u a v b w t, locate (.indirect .ra) { s3 with sp := 0xF6FE } = .ok ld u ∧ readLoc 16 ld u = .ok a v ∧
      pstackRead true v.sp (v.setPc a) = .ok b w ∧ writeLoc 16 ld b w = .error (.trap .busTimeout) t) :=
  ⟨⟨_, _, _, _, _, rfl, rfl, by decide, rfl, ⟨_, rfl⟩⟩, ⟨_, _, _, _, _, rfl, rfl, by decide, rfl, ⟨_, rfl⟩⟩,
    ⟨_, _, _, _, _, rfl, rfl, rfl, rfl, rfl⟩, ⟨_, _, _, _, _, rfl, rfl, rfl, rfl⟩, ⟨_, _, _, rfl, rfl, rfl⟩,
    ⟨_, _, _, rfl, rfl⟩, ⟨_, _, _, _, _, _, _, rfl, rfl, rfl, rfl⟩⟩

/-- SRG and CRG that fail at the first and at the last word. -/
theorem witness_OperandFaultsTrap_frames :
    (let s : State := { s0 with sp := 0xF60A }
     let a (j : Nat) : Word := s.sp - 2 - 2 * BitVec.ofNat 16 j
     (∀ j, j < 5 → s.lp.toNat ≤ (a j).toNat ∧ (a j).toNat ≤ 0xF7FF ∧ s.ramAt (a j) = true) ∧
       (a 5).toNat < s.lp.toNat) ∧
    ((({ s0 with sp := 0xF600 } : State).sp - 2).toNat < s0.lp.toNat ∧ s0.mem.wf = true) ∧
    (let s : State := { s0 with sp := 0xF7F6 }
     let a (j : Nat) : Word := s.sp + 2 * BitVec.ofNat 16 j
     (∀ j, j < 5 → s.lp.toNat ≤ (a j).toNat ∧ (a j).toNat ≤ 0xF7FF ∧ s.memoryAt (a j) = true) ∧
       0xF7FF < (a 5).toNat) ∧
    0xF7FF < (({ s0 with sp := 0xF800 } : State).sp + 0).toNat := by decide

theorem witness_MoveAndExchange :
    (∃ sv u ld v t, readOperand 16 (.indirect .ra) s0 = .ok sv u ∧ locate .autodec u = .ok ld v ∧
      writeLoc 16 ld sv v = .ok () t) ∧
    (∃ sv u ld v t, readOperand 8 (.indirect .rb) s0 = .ok sv u ∧ locate .autodec u = .ok ld v ∧
      writeLoc 8 ld sv v = .ok () t) ∧
    (∃ ls u sv v ld w dv x y t, locate (.indirect .ra) s0 = .ok ls u ∧ readLoc 16 ls u = .ok sv v ∧
      locate .absolute v = .ok ld w ∧ readLoc 16 ld w = .ok dv x ∧ writeLoc 16 ls dv x = .ok () y ∧
      writeLoc 16 ld sv y = .ok () t) ∧
    (∃ ls u sv v ld w dv x y t, locate (.indirect .rb) s0 = .ok ls u ∧ readLoc 8 ls u = .ok sv v ∧
      locate .spDirect v = .ok ld w ∧ readLoc 8 ld w = .ok dv x ∧ writeLoc 8 ls dv x = .ok () y ∧
      writeLoc 8 ld sv y = .ok () t) :=
  ⟨⟨_, _, _, _, _, rfl, rfl, rfl⟩, ⟨_, _, _, _, _, rfl, rfl, rfl⟩,
    ⟨_, _, _, _, _, _, _, _, _, _, rfl, rfl, rfl, rfl, rfl, rfl⟩,
    ⟨_, _, _, _, _, _, _, _, _, _, rfl, rfl, rfl, rfl, rfl, rfl⟩⟩

/-- With a result that is not zero, and with the result zero. -/
theorem witness_DjzInstruction :
    (∃ ls u sv v dv w t, locate (.indirect .ra) s0 = .ok ls u ∧ readLoc 16 ls u = .ok sv v ∧
      readOperand 16 .immediate v = .ok dv w ∧ writeLoc 16 ls (sv - 1) w = .ok () t) ∧
    (∃ ls u v dv w t, locate (.direct .rf) { s0 with rf := 1 } = .ok ls u ∧ readLoc 16 ls u = .ok 1 v ∧
      readOperand 16 .absolute v = .ok dv w ∧ writeLoc 16 ls (1 - 1) w = .ok () t) :=
  ⟨⟨_, _, _, _, _, _, _, rfl, rfl, rfl, rfl⟩, ⟨_, _, _, _, _, _, rfl, rfl, rfl, rfl⟩⟩

theorem witness_SubroutineInstructions :
    (∃ ls u a v b w x t, locate (.direct .rf) s0 = .ok ls u ∧ readLoc 16 ls u = .ok a v ∧
      readOperand 16 .immediate v = .ok b w ∧ writeLoc 16 ls w.pc w = .ok () x ∧
      pstackWrite true ((x.sp - 2) &&& 0xFFFE) a (x.setSp (x.sp - 2)) = .ok () t) ∧
    (∃ ld u a v b w t, locate .absolute s0 = .ok ld u ∧ readLoc 16 ld u = .ok a v ∧
      pstackRead true v.sp (v.setPc a) = .ok b w ∧ writeLoc 16 ld b w = .ok () t) :=
  ⟨⟨_, _, _, _, _, _, _, _, rfl, rfl, rfl, rfl, rfl⟩, ⟨_, _, _, _, _, _, _, rfl, rfl, rfl, rfl⟩⟩

/-- The push of JSB and the pop of RET outside the limits. -/
theorem witness_OperandFaultsTrap_stack :
    (∃ ls u a v b w x t, locate (.direct .rf) { s0 with sp := 0xF600 } = .ok ls u ∧ readLoc 16 ls u = .ok a v ∧
      readOperand 16 .immediate v = .ok b w ∧ writeLoc 16 ls w.pc w = .ok () x ∧
      pstackWrite true ((x.sp - 2) &&& 0xFFFE) a (x.setSp (x.sp - 2)) = .error (.trap .stackLimit) t) ∧
    (∃ ld u a v t, locate .absolute { s0 with sp := 0xF800 } = .ok ld u ∧ readLoc 16 ld u = .ok a v ∧
      pstackRead true v.sp (v.setPc a) = .error (.trap .stackLimit) t) :=
  ⟨⟨_, _, _, _, _, _, _, _, rfl, rfl, rfl, rfl, rfl⟩, ⟨_, _, _, _, _, rfl, rfl, rfl⟩⟩

theorem witness_OneOperandInstructions :
    (∃ ld u dv v t, locate .absolute s0 = .ok ld u ∧ readLoc 16 ld u = .ok dv v ∧
      writeLoc 16 ld (aluNeg dv v.psw).1 v = .ok () t) ∧
    (∃ ld u dv v t, locate (.indirect .rb) s0 = .ok ld u ∧ readLoc 8 ld u = .ok dv v ∧
      writeLoc 8 ld (aluNeg dv v.psw).1 v = .ok () t) :=
  ⟨⟨_, _, _, _, _, rfl, rfl, rfl⟩, ⟨_, _, _, _, _, rfl, rfl, rfl⟩⟩

theorem witness_StoreCompareAbs :
    (∃ ld u t, locate .immediate s0 = .ok ld u ∧ writeLoc 16 ld (aluSto u.psw).1 u = .ok () t) ∧
    (∃ ld u t, locate .immediate s0 = .ok ld u ∧ writeLoc 8 ld (aluSto u.psw).1 u = .ok () t) ∧
    (∃ dv t, readOperand 16 .absolute s0 = .ok dv t) ∧ (∃ dv t, readOperand 8 .absolute s0 = .ok dv t) ∧
    (∃ ld u dv v, locate (.direct .ra) s0 = .ok ld u ∧ readLoc 16 ld u = .ok dv v ∧ dv.msb = false) ∧
    (∃ ld u v t, locate (.direct .ra) { s0 with ra := 0x8000 } = .ok ld u ∧ readLoc 16 ld u = .ok 0x8000 v ∧
      (0x8000 : Word).msb = true ∧ writeLoc 16 ld (-0x8000) v = .ok () t) ∧
    (∃ ld u dv v, locate (.direct .ra) s0 = .ok ld u ∧ readLoc 8 ld u = .ok dv v ∧ dv.msb = false) ∧
    (∃ ld u v t, locate (.direct .ra) { s0 with ra := 0x1280 } = .ok ld u ∧ readLoc 8 ld u = .ok 0x80 v ∧
      (0x80 : Byte).msb = true ∧ writeLoc 8 ld (-0x80) v = .ok () t) :=
  ⟨⟨_, _, _, rfl, rfl⟩, ⟨_, _, _, rfl, rfl⟩, ⟨_, _, rfl⟩, ⟨_, _, rfl⟩, ⟨_, _, _, _, rfl, rfl, by decide⟩,
    ⟨_, _, _, _, rfl, rfl, rfl, rfl⟩, ⟨_, _, _, _, rfl, rfl, by decide⟩, ⟨_, _, _, _, rfl, rfl, rfl, rfl⟩⟩

theorem witness_RegisterFormsComplete : pairOf (.direct .ra) = some .ab ∧ pairOf (.direct .re) = some .ef := by decide

theorem witness_ControlRegisterInstructions :
    (∃ v t, readOperand 16 .immediate s0 = .ok v t) ∧
    (∃ ld u t, locate .absolute s0 = .ok ld u ∧ writeLoc 16 ld u.lp u = .ok () t) ∧
    (∃ ld u t, locate .autodec s0 = .ok ld u ∧ writeLoc 16 ld u.imk u = .ok () t) ∧
    (∃ ld u t, locate (.direct .ra) s0 = .ok ld u ∧ writeLoc 16 ld u.sps u = .ok () t) :=
  ⟨⟨_, _, rfl⟩, ⟨_, _, _, rfl, rfl⟩, ⟨_, _, _, rfl, rfl⟩, ⟨_, _, _, rfl, rfl⟩⟩

theorem witness_SfgmbInstruction :
    (∃ ld u t, locate .autodec s0 = .ok ld u ∧ s0.upfok = true ∧ writeLoc 8 ld 0x81 u = .ok () t) ∧
    (∃ ld u t, locate .autodec s2 = .ok ld u ∧ s2.upfok = false ∧
      writeLoc 8 ld 0x80 { u with freeCount := u.freeCount + 1 } = .ok () t) ∧
    ({ s0 with cfg := { defaultConfig with astromPresent := false } } : State).upfok = false :=
  ⟨⟨_, _, _, rfl, rfl, rfl⟩, ⟨_, _, _, rfl, rfl, rfl⟩, rfl⟩

/-- A branch of the table; one that is taken and one that is not. -/
theorem witness_BranchInstructions : ((Instr.dr, fun _ => true) : (BitVec 8 → Instr) × (Word → Bool)) ∈ branches :=
  .head _

/-- The masks 0 and 0x7F of ERC in a PSW that has all the codes, and one code that is missing. -/
theorem witness_MaskInstructions :
    (∀ j, j < 7 → (0 : BitVec 7).getLsbD j = true → s0.psw.getLsbD j = true) ∧
    (∀ j, j < 7 → (0x7F : BitVec 7).getLsbD j = true → (0x7F : Word).getLsbD j = true) ∧
    (∃ j, j < 7 ∧ (0x40 : BitVec 7).getLsbD j = true ∧ s0.psw.getLsbD j = false) :=
  ⟨by decide, by decide, ⟨6, by decide⟩⟩

theorem witness_SaveAndRestoreRegisters : 12 ≤ s0.sp.toNat ∧ s0.frameAt (s0.sp - 12) ∧ s0.frameAt s0.sp ∧
    ({ s0 with sp := 0xF60C }).frameAt ({ s0 with sp := 0xF60C }.sp - 12) ∧ s0.frameAt 0xF7F4 :=
  ⟨by decide, ⟨⟨rfl, rfl, rfl, rfl, rfl⟩, by decide, by decide, by decide, by decide, by decide⟩,
    ⟨⟨rfl, rfl, rfl, rfl, rfl⟩, by decide, by decide, by decide, by decide, by decide⟩,
    ⟨⟨rfl, rfl, rfl, rfl, rfl⟩, by decide, by decide, by decide, by decide, by decide⟩,
    ⟨⟨rfl, rfl, rfl, rfl, rfl⟩, by decide, by decide, by decide, by decide, by decide⟩⟩

theorem witness_VectorTable : 0 < 16 ∧ 15 < 16 := by decide

/-- Room for an entry with SPS at its reset value. -/
theorem room_top (vec : Word) (h : 0xF800 ≤ vec.toNat) (e : vec.getLsbD 0 = false) (l : vec.toNat ≤ 0xFFFC)
    (a : s0.memoryAt vec = true) (b : s0.memoryAt (vec + 2) = true) : s0.entryRoom vec :=
  ⟨s0_calm, by decide, by decide, by decide, by decide, by decide, by decide, by decide, h, e, l, a, b⟩

/-- Room for exactly one entry above LP. -/
theorem room_last : ({ s0 with sps := 0xF604 }).entryRoom 0xFFFC :=
  ⟨⟨rfl, rfl, rfl, rfl, rfl⟩, by decide, by decide, by decide, by decide, by decide, by decide, by decide, by decide, by decide,
    by decide, by decide, by decide⟩

theorem witness_TrapEntryResult : s0.entryRoom breakpointVector ∧ s0.entryRoom (softVector 0) ∧
    s0.entryRoom (softVector 7) ∧ s0.entryRoom (trapVector .astrom) ∧ s0.entryRoom (trapVector .invalidOpcode) ∧
    s0.entryRoom (interruptVector 15) ∧ ({ s0 with sps := 0xF604 }).entryRoom 0xFFFC :=
  ⟨room_top _ (by decide) (by decide) (by decide) (by decide) (by decide),
    room_top _ (by decide) (by decide) (by decide) (by decide) (by decide),
    room_top _ (by decide) (by decide) (by decide) (by decide) (by decide),
    room_top _ (by decide) (by decide) (by decide) (by decide) (by decide),
    room_top _ (by decide) (by decide) (by decide) (by decide) (by decide),
    room_top _ (by decide) (by decide) (by decide) (by decide) (by decide), room_last⟩

theorem witness_SystemStackFaultHalts :
    (((0xF600 : Word) - 2) &&& 0xFFFE).toNat < s0.lp.toNat ∧ 0xF7FF < (((0xF802 : Word) - 2) &&& 0xFFFE).toNat ∧
    0xF7FF < s0.sps.toNat ∧ (0xF5FE : Word).toNat < s0.lp.toNat := by decide

theorem witness_ReturnInstructions : ({ s0 with sps := 0xF7FC }).returnRoom ∧ ({ s0 with sps := 0xF600 }).returnRoom ∧
    0xF7FF < s0.sps.toNat ∧ s0.entryRoom 0xFFFC ∧ s0.pc.getLsbD 0 = false :=
  ⟨⟨⟨rfl, rfl, rfl, rfl, rfl⟩, by decide, by decide, by decide, by decide, by decide⟩,
    ⟨⟨rfl, rfl, rfl, rfl, rfl⟩, by decide, by decide, by decide, by decide, by decide⟩, by decide,
    room_top _ (by decide) (by decide) (by decide) (by decide) (by decide), by decide⟩

theorem witness_ExsInstruction : ({ s0 with sps := 0xF7FC }).returnRoom ∧ s0.mem.wf = true ∧ s0.ramAt 0xF7FC = true ∧
    s0.ramAt (0xF7FC + 2) = true :=
  ⟨⟨⟨rfl, rfl, rfl, rfl, rfl⟩, by decide, by decide, by decide, by decide, by decide⟩, by decide, by decide, by decide⟩

theorem witness_ResetSequence : s0.calm ∧ s0.memoryAt 0xFF80 = true ∧ s0.memoryAt 0xFF82 = true ∧
    ({ s0 with inp := { quietInputs with reset := true } } : State).inp.reset = true := ⟨s0_calm, by decide⟩

theorem witness_StepRunsDecodedInstruction :
    let s := atStart [0x9001] [] []
    s.inp.reset = false ∧ s.run = .run ∧
    (∃ t, fetch16 { s with bpArmed := pswB s.cfg.pswLayout s.psw, noBase := false, stored := [] } = .ok 0x9001 t ∧
      decode t.cfg 0x9001 = .ok (.add (.direct .ra) (.direct .rb))) := ⟨rfl, rfl, ⟨_, rfl, rfl⟩⟩

theorem witness_InvalidCodeTraps :
    let s := atStart [0x4800] [] []
    s.inp.reset = false ∧ s.run = .run ∧ s.calm ∧ s.pc.getLsbD 0 = false ∧ s.memoryAt (s.relocStream s.pc) = true ∧
      decode s.cfg (s.mem.read true (s.relocStream s.pc)) = .error .unassigned :=
  ⟨rfl, rfl, ⟨rfl, rfl, rfl, rfl, rfl⟩, rfl, rfl, rfl⟩

/-- One entry for each boundary. -/
def once : Config := { defaultConfig with entryIsBoundary := false }

theorem witness_BoundaryOrder :
    ({ s0 with inp := { quietInputs with pare := true } } : State).inp.pare = true ∧
    ({ s0 with run := .halt } : State).run = .halt ∧
    (s0.inp.pare = false ∧ s0.run ≠ .halt ∧ s0.bpArmed = false ∧ selectInterrupt s0 = none) ∧
    (let s : State := { s0 with bpArmed := true, cfg := once }
     s.inp.pare = false ∧ s.run ≠ .halt ∧ s.cfg.entryIsBoundary = false ∧ s.bpArmed = true) ∧
    (let s : State := { s0 with inp := { quietInputs with pi := 1 }, cfg := once }
     s.inp.pare = false ∧ s.run ≠ .halt ∧ s.cfg.entryIsBoundary = false ∧ s.bpArmed = false ∧
       selectInterrupt s = some 0) ∧
    (let s : State := { s0 with bpArmed := true }
     s.inp.pare = false ∧ s.run ≠ .halt ∧ s.cfg.entryIsBoundary = true ∧ s.bpArmed = true ∧
       ∃ t, enterEvent 0xFF98 { s with bpArmed := false } = .next t) ∧
    (let s : State := { s0 with inp := { quietInputs with pi := 0x8000 } }
     s.inp.pare = false ∧ s.run ≠ .halt ∧ s.cfg.entryIsBoundary = true ∧ s.bpArmed = false ∧
       selectInterrupt s = some 15 ∧ (∃ t, enterEvent (interruptVector 15) (intAck 15 s) = .next t) ∧
       ∃ t, boundary s = .next t) ∧ 15 < 16 :=
  ⟨by decide, by decide, by decide, by decide, by decide, ⟨by decide, by decide, by decide, by decide, ⟨_, rfl⟩⟩,
    ⟨by decide, by decide, by decide, by decide, by decide, ⟨_, rfl⟩, ⟨_, rfl⟩⟩, by decide⟩

theorem witness_InterruptSelection :
    let s : State := { s0 with imk := 0x7FFF, psw := 0x0F00, inp := { quietInputs with pi := 0xFFFF } }
    s.imk.getLsbD 15 = false ∧ s.inp.pi.getLsbD 15 = true ∧ selectInterrupt s = some 15 ∧ selectInterrupt s0 = none := by
  decide

theorem witness_WaitAndHaltStay :
    (let s : State := { s0 with run := .wait }
     s.inp.reset = false ∧ s.run = .wait ∧ s.inp.pare = false ∧ selectInterrupt s = none) ∧
    (let s : State := { s0 with run := .wait, inp := { quietInputs with pare := true } }
     s.inp.reset = false ∧ s.run = .wait ∧ s.inp.pare = true) ∧
    (let s : State := { s0 with run := .wait, inp := { quietInputs with pi := 1 }, cfg := once }
     s.inp.reset = false ∧ s.run = .wait ∧ s.inp.pare = false ∧ s.cfg.entryIsBoundary = false ∧
       selectInterrupt s = some 0 ∧ ∃ t, enterEvent (interruptVector 0) (intAck 0 s) = .next t) ∧
    (let s : State := { s0 with run := .wait, inp := { quietInputs with pi := 1 } }
     s.inp.reset = false ∧ s.run = .wait ∧ s.inp.pare = false ∧ s.cfg.entryIsBoundary = true ∧
       selectInterrupt s = some 0 ∧ ∃ t u, enterEvent (interruptVector 0) (intAck 0 s) = .next t ∧
         interruptLoop (entryFuel - 1) t = .next u) ∧
    (State.reset.inp.reset = false ∧ State.reset.run = .halt ∧ State.reset.inp.execute = false ∧
      State.reset.inp.stepOne = false ∧ State.reset.inp.edits = []) ∧
    (let s : State := { State.reset with inp := { quietInputs with execute := true } }
     let e : State := { s.inp.edits.foldl applyEdit s with run := .run }
     s.inp.reset = false ∧ s.run = .halt ∧ s.inp.execute = true ∧ e.bpArmed = false ∧ selectInterrupt e = none) ∧
    (let s : State := { s0 with run := .halt, inp := { quietInputs with execute := true, pi := 1 } }
     let e : State := { s.inp.edits.foldl applyEdit s with run := .run }
     e.bpArmed = false ∧ selectInterrupt e = some 0 ∧
       ∃ t u, enterEvent (interruptVector 0) (intAck 0 e) = .next t ∧ interruptLoop (entryFuel - 1) t = .next u) ∧
    (let s : State := { s0 with run := .halt, bpArmed := true, inp := { quietInputs with execute := true } }
     let e : State := { s.inp.edits.foldl applyEdit s with run := .run }
     e.bpArmed = true ∧ ∃ t u, enterEvent 0xFF98 { e with bpArmed := false } = .next t ∧
       interruptLoop entryFuel t = .next u) ∧
    (let s : State := { s0 with run := .halt, inp := { quietInputs with stepOne := true } }
     s.inp.reset = false ∧ s.inp.execute = false ∧ s.inp.stepOne = true ∧
       ∃ u, stepNow { s.inp.edits.foldl applyEdit s with run := .run } = .next u) :=
  ⟨by decide, by decide, ⟨rfl, rfl, rfl, rfl, rfl, ⟨_, rfl⟩⟩, ⟨rfl, rfl, rfl, rfl, rfl, ⟨_, _, rfl, rfl⟩⟩, by decide,
    by decide, ⟨rfl, rfl, ⟨_, _, rfl, rfl⟩⟩, ⟨rfl, ⟨_, _, rfl, rfl⟩⟩, ⟨rfl, rfl, rfl, ⟨_, rfl⟩⟩⟩

/-- Results at both ends of the range, one past each, and a zero divisor. -/
theorem witness_AstromIntegerResults : defaultConfig.divRounding = .towardZero ∧
    (AstromOp.add, ((32767 : Int))) ∈ [(AstromOp.add, (0x7FFE : Word).toInt + (1 : Word).toInt)] ∧
    (AstromOp.sub, (-32768 : Int)) ∈ [(AstromOp.sub, (0x8001 : Word).toInt - (1 : Word).toInt)] ∧
    (AstromOp.neg, (32768 : Int)) ∈ [(AstromOp.neg, -(0x8000 : Word).toInt)] ∧
    (AstromOp.sub, (-32769 : Int)) ∈ [(AstromOp.sub, (0x8000 : Word).toInt - (1 : Word).toInt)] ∧
    (AstromOp.div, (0 : Int)) ∈ [(AstromOp.div, Int.tdiv (20 : Word).toInt (0 : Word).toInt)] ∧ (0 : Word) = 0 := by
  decide

theorem witness_AstromIntegerInstructions : s0.upfok = true ∧ (Instr.smip, AstromOp.add) ∈ astromIntP ∧
    (Instr.absi, AstromOp.abs) ∈ astromIntM ∧
    (∃ v t, readOperand 16 .absolute s0 = .ok v t ∧ raisesTrap (intOp .add s0.cfg (s0.getM .r0) v).2 = false) ∧
    raisesTrap (intOp .abs s0.cfg (s0.getM .r0) ((s0.getM .r1).extractLsb' 0 16)).2 = false ∧
    raisesTrap (intOp .div s0.cfg (s0.getM .r0) ((s0.getM .r1).extractLsb' 0 16)).2 = true ∧
    (∃ v t, readOperand 16 (.direct .rd) s0 = .ok v t ∧ raisesTrap (intOp .div s0.cfg (s0.getM .r0) v).2 = true ∧
      ({ t.setM .r0 (intOp .div s0.cfg (s0.getM .r0) v).1 with
        mf := (intOp .div s0.cfg (s0.getM .r0) v).2 } : State).entryRoom 0xFF94) :=
  ⟨rfl, .head _, .tail _ (.tail _ (.tail _ (.tail _ (.tail _ (.head _))))), ⟨_, _, rfl, by decide⟩, by decide, rfl,
    ⟨_, _, rfl, rfl, ⟨rfl, rfl, rfl, rfl, rfl⟩, by decide, by decide, by decide, by decide, by decide, by decide,
      by decide, by decide, by decide, by decide, by decide, by decide⟩⟩

theorem witness_AstromTransfers : s0.upfok = true ∧ (∃ v t, readOperand 16 .autoinc s0 = .ok v t) ∧
    pairOf (.direct .rc) = some .cd ∧
    (∃ l u t, locate .autodec s0 = .ok l u ∧ writeLoc 16 l ((s0.getM .r0).extractLsb' 0 16) u = .ok () t) :=
  ⟨rfl, ⟨_, _, rfl⟩, rfl, ⟨_, _, _, rfl, rfl⟩⟩

theorem witness_AstromFloatInstructions : s0.upfok = true ∧ s0.entryRoom 0xFF94 ∧
    (Instr.pfip, true, ftoiOp) ∈ astromFloatP ∧ (Instr.pfim, true, ftoiOp) ∈ astromFloatM ∧
    pairOf (.direct .re) = some .ef ∧ (∃ v t, readOperand 16 .autoinc s0 = .ok v t ∧ t.entryRoom 0xFF94) :=
  ⟨rfl, room_top _ (by decide) (by decide) (by decide) (by decide) (by decide),
    .tail _ (.tail _ (.tail _ (.tail _ (.tail _ (.tail _ (.head _)))))),
    .tail _ (.tail _ (.tail _ (.tail _ (.tail _ (.tail _ (.tail _ (.head _))))))), rfl,
    ⟨_, _, rfl, ⟨rfl, rfl, rfl, rfl, rfl⟩, by decide, by decide, by decide, by decide, by decide, by decide, by decide, by decide,
      by decide, by decide, by decide, by decide⟩⟩

theorem witness_AstromFunctionConstraints : faddOp ∈ [faddOp, fsubOp, fmulOp, fdivOp, fnegOp, fabsOp] := .head _

theorem witness_AstromOffTraps : s2.upfok = false ∧ pairOf (.direct .ra) = some .ab ∧
    (∃ v t, readOperand 16 .immediate s2 = .ok v t) ∧ (∃ l t, locate .autodec s2 = .ok l t) :=
  ⟨rfl, rfl, ⟨_, _, rfl⟩, ⟨_, _, rfl⟩⟩

theorem witness_GeneralRegisterFrame :
    (∃ t, exec (.incb (.direct .ra)) s0 = .next t) ∧ (Instr.incb (.direct .ra)).writesG .rb = false ∧
    (Instr.incb (.direct .ra)).isByte = true ∧ (∃ t, exec (.sldl (.direct .ra)) s0 = .next t) ∧
    (Instr.sldl (.direct .ra)).writesG .rc = false ∧ (Instr.sldl (.direct .ra)).writesG .rb = true :=
  ⟨⟨_, rfl⟩, by decide, by decide, ⟨_, rfl⟩, by decide, by decide⟩

theorem witness_SpecialRegisterFrame :
    (∃ t, exec (.add (.direct .ra) (.direct .rb)) s0 = .next t ∧ t.sps = s0.sps) ∧
    (Instr.add (.direct .ra) (.direct .rb)).writesSp = false ∧
    (Instr.add (.direct .ra) (.direct .rb)).writesSps = false ∧
    (Instr.add (.direct .ra) (.direct .rb)).isAstrom = false ∧
    (∀ o, Instr.add (.direct .ra) (.direct .rb) ≠ .clp o) ∧
    (∀ l, Instr.add (.direct .ra) (.direct .rb) ≠ .cnm l) :=
  ⟨⟨_, rfl, rfl⟩, by decide, by decide, by decide, fun _ => nofun, fun _ => nofun⟩

theorem witness_FlagWriters : (Instr.rdc (.direct .ra)).flagRow = some ⟨.byResult, .zero, .byResult, .byResult⟩ ∧
    (∃ t, exec (.rdc (.direct .ra)) s0 = .next t ∧ t.sps = s0.sps) ∧
    (Instr.stz .absolute).flagRow = some ⟨.kept, .zero, .one, .zero⟩ ∧
    (∃ t, exec (.stz .absolute) s0 = .next t ∧ t.sps = s0.sps) := ⟨rfl, ⟨_, rfl, rfl⟩, rfl, ⟨_, rfl, rfl⟩⟩

theorem witness_NonStoringInstructionsKeepMemory : s0.admp = [] ∧
    (∃ t, exec (.add .absolute (.direct .ra)) s0 = .next t ∧ t.sps = s0.sps) ∧
    (Instr.add .absolute (.direct .ra)).writesSps = false ∧
    (Instr.add .absolute (.direct .ra)).storesNothing = true := ⟨rfl, ⟨_, rfl, rfl⟩, by decide, by decide⟩

theorem witness_StoringInstructionsKeepOtherBytes : s0.admp = [] ∧ s0.mem.wf = true ∧
    (∃ sv u ld v t, readOperand 16 .immediate s0 = .ok sv u ∧ locate (.indirect .ra) u = .ok ld v ∧
      0x2002 ∉ storedBytes 16 ld v ∧ exec (.mov .immediate (.indirect .ra)) s0 = .next t ∧ t.sps = s0.sps) ∧
    (∃ sv u ld v t, readOperand 8 .immediate s0 = .ok sv u ∧ locate (.indirect .rb) u = .ok ld v ∧
      0x2000 ∉ storedBytes 8 ld v ∧ exec (.movb .immediate (.indirect .rb)) s0 = .next t ∧ t.sps = s0.sps) ∧
    (∃ ld u t, locate .absolute s0 = .ok ld u ∧ 0x2004 ∉ storedBytes 16 ld u ∧
      exec (.inc .absolute) s0 = .next t ∧ t.sps = s0.sps) ∧
    (∃ ld u t, locate .absolute s0 = .ok ld u ∧ 0x2003 ∉ storedBytes 8 ld u ∧
      exec (.sfgmb .absolute) s0 = .next t ∧ t.sps = s0.sps) ∧
    (∃ l u t, locate .autodec s0 = .ok l u ∧ 0xF700 ∉ storedBytes 16 l u ∧
      exec (.azi .r0 .autodec) s0 = .next t ∧ t.sps = s0.sps) ∧
    (∃ l u t, locate .absolute s0 = .ok l u ∧ 0x2004 ∉ storedBytes 16 l u ∧
      exec (.djz .absolute .immediate) s0 = .next t ∧ t.sps = s0.sps) ∧
    (∃ lf u sv v ld w t, locate (.indirect .ra) s0 = .ok lf u ∧ readLoc 16 lf u = .ok sv v ∧
      locate .absolute v = .ok ld w ∧ 0x2004 ∉ storedBytes 16 lf w ∧ 0x2004 ∉ storedBytes 16 ld w ∧
      exec (.exc (.indirect .ra) .absolute) s0 = .next t ∧ t.sps = s0.sps) ∧
    (∃ lf u sv v ld w t, locate (.indirect .ra) s0 = .ok lf u ∧ readLoc 8 lf u = .ok sv v ∧
      locate .absolute v = .ok ld w ∧ 0x2001 ∉ storedBytes 8 lf w ∧ 0x2001 ∉ storedBytes 8 ld w ∧
      exec (.excb (.indirect .ra) .absolute) s0 = .next t ∧ t.sps = s0.sps) ∧
    (∃ lf u t, locate .absolute s0 = .ok lf u ∧ 0x2004 ∉ storedBytes 16 lf u ∧
      exec (.jsb .absolute .immediate) s0 = .next t ∧ t.sps = s0.sps ∧ 0x2004 ≠ t.sp.toNat ∧
      0x2004 ≠ (t.sp + 1).toNat) :=
  ⟨rfl, by decide, ⟨_, _, _, _, _, rfl, rfl, by decide, rfl, rfl⟩, ⟨_, _, _, _, _, rfl, rfl, by decide, rfl, rfl⟩,
    ⟨_, _, _, rfl, by decide, rfl, rfl⟩, ⟨_, _, _, rfl, by decide, rfl, rfl⟩, ⟨_, _, _, rfl, by decide, rfl, rfl⟩,
    ⟨_, _, _, rfl, by decide, rfl, rfl⟩, ⟨_, _, _, _, _, _, _, rfl, rfl, rfl, by decide, by decide, rfl, rfl⟩,
    ⟨_, _, _, _, _, _, _, rfl, rfl, rfl, by decide, by decide, rfl, rfl⟩,
    ⟨_, _, _, rfl, by decide, rfl, rfl, by decide, by decide⟩⟩

theorem witness_StepKeepsInvariant : s0.Inv ∧ (∃ t, step s0 = .next t) :=
  ⟨⟨by decide, by decide, by decide, by decide, by decide, by decide, by decide⟩, ⟨_, rfl⟩⟩

theorem witness_StepNeverFaults : s0.noRom = true ∧ State.reset.noRom = true := by decide

end Sys2Proof.Tests
end

