-- ==== Sys2Proof/Proofs/AddFlags.lean ====
section
/-! SUPPORT. `AddFlags` (00_scope.md R15) at every width: the sum, the carry out and the signed overflow, said once
in terms of the exact sums, and the obligation about them. -/

namespace Sys2Proof.Machine

/-! ### The unsigned sum -/

@[simp] theorem addSum_toNat {n : Nat} (a b : BitVec n) (cin : Bool) :
    (addSum a b cin).toNat = (a.toNat + b.toNat + cin.toNat) % 2 ^ n := BitVec.toNat_ofNat _ _

@[simp] theorem carryOut_eq_true_iff {n : Nat} (a b : BitVec n) (cin : Bool) :
    carryOut a b cin = true ↔ 2 ^ n ≤ a.toNat + b.toNat + cin.toNat := decide_eq_true_iff

theorem carryOut_eq_false_iff {n : Nat} (a b : BitVec n) (cin : Bool) :
    carryOut a b cin = false ↔ a.toNat + b.toNat + cin.toNat < 2 ^ n := by
  rw [← Bool.not_eq_true, carryOut_eq_true_iff, Nat.not_le]

/-- The exact sum stays below twice 2^N, so one carry out is enough. -/
theorem toNat_add_toNat_add_carry_lt {n : Nat} (a b : BitVec n) (cin : Bool) :
    a.toNat + b.toNat + cin.toNat < 2 * 2 ^ n := by
  have ha := a.isLt
  have hb := b.isLt
  have hcin := cin.toNat_le
  omega

/-- The carry out is bit N of the exact sum. -/
theorem carryOut_toNat {n : Nat} (a b : BitVec n) (cin : Bool) :
    (carryOut a b cin).toNat = (a.toNat + b.toNat + cin.toNat) / 2 ^ n := by
  have hlt := toNat_add_toNat_add_carry_lt a b cin
  cases hco : carryOut a b cin with
  | false => exact (Nat.div_eq_of_lt ((carryOut_eq_false_iff a b cin).1 hco)).symm
  | true =>
    have hle := (carryOut_eq_true_iff a b cin).1 hco
    exact (Nat.div_eq_of_lt_le (by rwa [Nat.one_mul]) hlt).symm

theorem addSum_toNat_of_not_carryOut {n : Nat} {a b : BitVec n} {cin : Bool} (h : carryOut a b cin = false) :
    (addSum a b cin).toNat = a.toNat + b.toNat + cin.toNat := by
  rw [addSum_toNat, Nat.mod_eq_of_lt ((carryOut_eq_false_iff a b cin).1 h)]

theorem addSum_toNat_of_carryOut {n : Nat} {a b : BitVec n} {cin : Bool} (h : carryOut a b cin = true) :
    (addSum a b cin).toNat = a.toNat + b.toNat + cin.toNat - 2 ^ n := by
  have hlt := toNat_add_toNat_add_carry_lt a b cin
  rw [addSum_toNat, Nat.mod_eq_sub_mod ((carryOut_eq_true_iff a b cin).1 h), Nat.mod_eq_of_lt (by omega)]

/-! ### The signed sum -/

/-- The sign bit and the signed value, by the half of the range the word lies in. -/
theorem msb_toInt_cases {n : Nat} (x : BitVec n) :
    (x.msb = false ∧ 2 * x.toNat < 2 ^ n ∧ x.toInt = x.toNat) ∨
    (x.msb = true ∧ 2 ^ n ≤ 2 * x.toNat ∧ x.toInt = x.toNat - (2 ^ n : Nat)) := by
  rw [BitVec.toInt_eq_msb_cond]
  cases hx : x.msb with
  | false => exact .inl ⟨rfl, BitVec.msb_eq_false_iff_two_mul_lt.1 hx, rfl⟩
  | true => exact .inr ⟨rfl, BitVec.msb_eq_true_iff_two_mul_ge.1 hx, rfl⟩

theorem addOverflow_eq_true_iff_msb {n : Nat} (a b : BitVec n) (cin : Bool) :
    addOverflow a b cin = true ↔ a.msb = b.msb ∧ (addSum a b cin).msb ≠ a.msb := by
  simp [addOverflow]

/-- The overflow bit is set exactly where the signed sum leaves the range of the word: the sum of two words of equal
signs can leave it on their own side only, and with different signs it always fits. -/
theorem addOverflow_eq_true_iff {m : Nat} (a b : BitVec (m + 1)) (cin : Bool) :
    addOverflow a b cin = true ↔
      a.toInt + b.toInt + cin.toNat < -2 ^ m ∨ 2 ^ m ≤ a.toInt + b.toInt + cin.toNat := by
  have ha := a.isLt
  have hb := b.isLt
  have hcin := cin.toNat_le
  have hpow : (2 : Int) ^ m = (2 ^ m : Nat) := by push_cast; rfl
  rw [addOverflow_eq_true_iff_msb]
  obtain ⟨hsa, hna, hia⟩ | ⟨hsa, hna, hia⟩ := msb_toInt_cases a
  · obtain ⟨hsb, hnb, hib⟩ | ⟨hsb, hnb, hib⟩ := msb_toInt_cases b <;> rw [hsa, hsb, hia, hib]
    · -- both non-negative: no carry out, and the sum is negative as a word where it reaches 2^m
      have hco : carryOut a b cin = false := (carryOut_eq_false_iff a b cin).2 (by omega)
      rw [eq_self, true_and, ne_eq, Bool.not_eq_false, BitVec.msb_eq_true_iff_two_mul_ge,
        addSum_toNat_of_not_carryOut hco]
      omega
    · simp only [Bool.false_eq_true, false_and, false_iff]
      omega
  · obtain ⟨hsb, hnb, hib⟩ | ⟨hsb, hnb, hib⟩ := msb_toInt_cases b <;> rw [hsa, hsb, hia, hib]
    · simp only [Bool.true_eq_false, false_and, false_iff]
      omega
    · -- both negative: a carry out, and the sum is non-negative as a word where it stays below -2^m
      have hco : carryOut a b cin = true := (carryOut_eq_true_iff a b cin).2 (by omega)
      rw [eq_self, true_and, ne_eq, Bool.not_eq_true, BitVec.msb_eq_false_iff_two_mul_lt,
        addSum_toNat_of_carryOut hco]
      omega

/-! ### The obligation -/

/-- Settles O16: the three clauses hold at every width, the last one at every width that has a sign bit. -/
theorem addFlagsMeaning : Obligations.AddFlagsMeaning := by
  intro n a b cin hn
  obtain ⟨m, rfl⟩ : ∃ m, n = m + 1 := ⟨n - 1, by omega⟩
  exact ⟨addSum_toNat a b cin, carryOut_toNat a b cin, addOverflow_eq_true_iff a b cin⟩

end Sys2Proof.Machine
end

