-- ==== Sys2Proof/Proofs/State.lean ====
section
/-! SUPPORT. What instructions and steps leave unchanged (10_state.md): the registers and their pairs, how a computation
can end, what an instruction may have changed when it ends or is abandoned, what entries may change, and the obligations
about them. -/

namespace Sys2Proof.Machine

/-! ### Registers, pairs and the state after reset -/

/-- A mask of all bits but one clears that bit and keeps the others. -/
theorem getLsbD_and_mask {m : Word} {b : Nat} (hm : ∀ j < 16, m.getLsbD j = decide (j ≠ b)) (v : Word) (k : Nat) :
    (v &&& m).getLsbD k = (v.getLsbD k && decide (k ≠ b)) := by
  by_cases hk : k < 16
  · rw [BitVec.getLsbD_and, hm k hk]
  · simp [BitVec.getLsbD_of_ge v k (by omega)]

/-- Settles O12: the masks 0xFFFE and 0x7FFF are all bits but bit 0 and all bits but bit 15. -/
theorem stuckBits : Obligations.StuckBits := by
  intro s v k
  have heven : (v &&& 0xFFFE).getLsbD k = (v.getLsbD k && decide (k ≠ 0)) := getLsbD_and_mask (by decide) v k
  have hmask : (v &&& 0x7FFF).getLsbD k = (v.getLsbD k && decide (k ≠ 15)) := getLsbD_and_mask (by decide) v k
  exact ⟨heven, heven, heven, hmask, rfl, rfl⟩

/-- A byte merged into a register replaces bits 7-0 only (10_state.md R22). -/
theorem mergeLow_byte (old : Word) (b : Byte) : mergeLow old b = old.extractLsb' 8 8 ++ b := by
  simp [mergeLow]

/-- A word merged into a register replaces all of it (10_state.md R23). -/
theorem mergeLow_word (old w : Word) : mergeLow old w = w := by
  simp [mergeLow]

theorem mergeLow_byte_high (old : Word) (b : Byte) : (mergeLow old b).extractLsb' 8 8 = old.extractLsb' 8 8 := by
  rw [mergeLow_byte]
  exact BitVec.extractLsb'_append_eq_left

theorem readLoc_reg (n : Nat) (r : GReg) (s : State) : readLoc n (.reg r) s = .ok ((s.getG r).setWidth n) s := rfl

theorem readLoc_spReg (n : Nat) (s : State) : readLoc n .spReg s = .ok (s.sp.setWidth n) s := rfl

theorem writeLoc_reg {n : Nat} (r : GReg) (v : BitVec n) (s : State) :
    writeLoc n (.reg r) v s = .ok () (s.setG r (mergeLow (s.getG r) v)) := rfl

theorem writeLoc_spReg {n : Nat} (v : BitVec n) (s : State) :
    writeLoc n .spReg v s = .ok () (s.setSp (mergeLow s.sp v)) := rfl

/-- Settles O13, by what is merged into a register. -/
theorem registerBytesAndWords : Obligations.RegisterBytesAndWords := by
  intro s r q b w
  refine ⟨?_, ?_, ?_, ?_, setG_getG_same s r w, setG_getG_other s r q w, ?_, ?_, ?_, ?_⟩
  · rw [readLoc_reg, BitVec.setWidth_eq_extractLsb' (by decide)]
  · rw [readLoc_reg, BitVec.setWidth_eq]
  · rw [writeLoc_reg, mergeLow_byte]
  · rw [writeLoc_reg, mergeLow_word]
  · rw [readLoc_spReg, BitVec.setWidth_eq_extractLsb' (by decide)]
  · rw [readLoc_spReg, BitVec.setWidth_eq]
  · rw [writeLoc_spReg, mergeLow_byte]; rfl
  · rw [writeLoc_spReg, mergeLow_word]; rfl

theorem pairPartner_ne_pairDeclared (p : Pair) : pairPartner p ≠ pairDeclared p := by
  cases p <;> decide

/-- The two halves of a long word put together again. -/
theorem extractLsb'_append_halves (v : Long) : v.extractLsb' 16 16 ++ v.extractLsb' 0 16 = v :=
  (BitVec.extractLsb'_append_extractLsb'_eq_extractLsb' rfl).trans BitVec.extractLsb'_eq_self

/-- Which register of a pair holds bits 31-16 is the configuration's choice, which a register write leaves. -/
theorem getPair_setPair (s : State) (p : Pair) (v : Long) : (s.setPair p v).getPair p = v := by
  have hne := pairPartner_ne_pairDeclared p
  cases hc : s.cfg.longHighIsDeclared
  · simp [State.setPair, State.getPair, hc, setG_getG_other _ _ _ _ hne, extractLsb'_append_halves]
  · simp [State.setPair, State.getPair, hc, setG_getG_other _ _ _ _ hne.symm, extractLsb'_append_halves]

theorem setPair_getG_other (s : State) (p : Pair) (v : Long) {z : GReg} (hd : z ≠ pairDeclared p)
    (hp : z ≠ pairPartner p) : (s.setPair p v).getG z = s.getG z := by
  unfold State.setPair
  split <;> simp [setG_getG_other, hd, hp]

theorem readPair_apply (p : Pair) (s : State) : readPair p s = .ok (s.getPair p) s := rfl

/-- What the obligation says of a pair, for the registers the model gives it. -/
theorem readPair_writePair (s : State) (v : Long) (p : Pair) :
    (s.cfg.longHighIsDeclared = true → readPair p s = .ok (s.getG (pairDeclared p) ++ s.getG (pairPartner p)) s) ∧
    (s.cfg.longHighIsDeclared = false → readPair p s = .ok (s.getG (pairPartner p) ++ s.getG (pairDeclared p)) s) ∧
    (∃ t, writePair p v s = .ok () t ∧ t.getPair p = v ∧
      ∀ z, z ≠ pairDeclared p → z ≠ pairPartner p → t.getG z = s.getG z) := by
  refine ⟨fun h => ?_, fun h => ?_, s.setPair p v, rfl, getPair_setPair s p v, fun z => setPair_getG_other s p v⟩ <;>
    simp [readPair_apply, State.getPair, h]

/-- Settles O14, pair by pair. -/
theorem registerPairs : Obligations.RegisterPairs := by
  intro s v x y p hmem
  simp only [List.mem_cons, List.not_mem_nil, or_false, Prod.mk.injEq] at hmem
  obtain ⟨rfl, rfl, rfl⟩ | ⟨rfl, rfl, rfl⟩ | ⟨rfl, rfl, rfl⟩ := hmem
  · exact ⟨rfl, rfl, readPair_writePair s v .ab⟩
  · exact ⟨rfl, rfl, readPair_writePair s v .cd⟩
  · exact ⟨rfl, rfl, readPair_writePair s v .ef⟩

/-- Settles O58: the values of 10_state.md R43 and the blank memory. -/
theorem resetMeetsInvariant : Obligations.ResetMeetsInvariant where
  sp_even := by decide
  pc_even := by decide
  sps_even := by decide
  mk_bit15 := by decide
  mem_wf := reset_mem_wf
  no_base := rfl
  no_stored := rfl

/-- A memory with no byte in it reads as zero (log 26). -/
theorem read_nil (wide : Bool) (pa : Word) : Memory.read [] wide pa = 0 := by
  cases wide <;> simp [Memory.read, Memory.readByte]

/-- Settles O60: the blank memory gives the two words of the reset vector. -/
theorem resetValues : Obligations.ResetValues := by
  refine ⟨rfl, rfl, rfl, rfl, rfl, rfl, (read_nil true _).symm, ?_⟩
  rw [show State.reset.mem = [] from rfl, read_nil]
  rfl

/-! ### How a computation can end -/

/-- `x` ends on `s` in a state related by `Q`, or is abandoned in one related by `R`; it never stops the CPU. -/
structure EndsAt {α : Type} (R Q : State → State → Prop) (x : M α) (s : State) : Prop where
  ok : ∀ {a t}, x s = .ok a t → Q s t
  error : ∀ {e t}, x s = .error e t → R s t
  no_halt : ∀ {t}, x s ≠ .error .halt t

/-- `x` ends so on every state. -/
def Ends {α : Type} (R Q : State → State → Prop) (x : M α) : Prop := ∀ s, EndsAt R Q x s

/-- What holds midway, `R`, and what holds at the end, `Q`: a middle can be followed by a middle or by an end. -/
structure Phase (R Q : State → State → Prop) : Prop where
  mid : Frame R
  absorb : ∀ {s t u}, R s t → Q t u → Q s u

theorem phase_self {R : State → State → Prop} (hR : Frame R) : Phase R R := ⟨hR, hR.trans⟩

section
variable {α β : Type} {R Q : State → State → Prop}

theorem endsAt_of_ok {x : M α} {s t : State} {a : α} (hx : x s = .ok a t) (h : Q s t) : EndsAt R Q x s where
  ok hx' := by cases hx.symm.trans hx'; exact h
  error hx' := nomatch hx.symm.trans hx'
  no_halt hx' := nomatch hx.symm.trans hx'

theorem endsAt_of_error {x : M α} {s t : State} {e : Abort} (hx : x s = .error e t) (h : R s t) (he : e ≠ .halt) :
    EndsAt R Q x s where
  ok hx' := nomatch hx.symm.trans hx'
  error hx' := by cases hx.symm.trans hx'; exact h
  no_halt hx' := by cases hx.symm.trans hx'; exact he rfl

theorem ends_imp {R' Q' : State → State → Prop} {x : M α} (hR : ∀ s t, R s t → R' s t) (hQ : ∀ s t, Q s t → Q' s t)
    (h : Ends R Q x) : Ends R' Q' x := fun s =>
  ⟨fun hx => hQ _ _ ((h s).ok hx), fun hx => hR _ _ ((h s).error hx), (h s).no_halt⟩

/-- What follows both from `R` and from `Q` is kept. -/
theorem keeps_of_ends {T : State → State → Prop} {x : M α} (hR : ∀ s t, R s t → T s t) (hQ : ∀ s t, Q s t → T s t)
    (h : Ends R Q x) : Keeps T x := by
  intro s
  unfold KeepsAt
  split
  · next hx => exact hQ _ _ ((h s).ok hx)
  · next hx => exact hR _ _ ((h s).error hx)

/-- A sequence; its second part may use how the first one ended. -/
theorem endsAt_bind (hP : Phase R Q) {x : M α} {f : α → M β} {s : State} (hx : EndsAt R R x s)
    (hf : ∀ a t, x s = .ok a t → R s t → EndsAt R Q (f a) t) : EndsAt R Q (x >>= f) s where
  ok h := by
    obtain ⟨a, u, hxu, hfu⟩ := bind_ok.1 h
    exact hP.absorb (hx.ok hxu) ((hf a u hxu (hx.ok hxu)).ok hfu)
  error h := by
    obtain hxt | ⟨a, u, hxu, hfu⟩ := bind_error.1 h
    · exact hx.error hxt
    · exact hP.mid.trans (hx.ok hxu) ((hf a u hxu (hx.ok hxu)).error hfu)
  no_halt h := by
    obtain hxt | ⟨a, u, hxu, hfu⟩ := bind_error.1 h
    · exact hx.no_halt hxt
    · exact (hf a u hxu (hx.ok hxu)).no_halt hfu

/-- The same on every state, for a second part that needs no more than what the first one answered. -/
theorem ends_bind (hP : Phase R Q) {x : M α} {f : α → M β} (hx : Ends R R x)
    (hf : ∀ a s t, x s = .ok a t → Ends R Q (f a)) : Ends R Q (x >>= f) :=
  fun s => endsAt_bind hP (hx s) (fun a t hxs _ => hf a s t hxs t)

theorem ends_get_bind {f : State → M β} (h : ∀ s, EndsAt R Q (f s) s) : Ends R Q (get >>= f) := fun s =>
  ⟨(h s).ok, (h s).error, (h s).no_halt⟩

theorem ends_pure (hR : Frame R) (a : α) : Ends R R (pure a : M α) := fun s => endsAt_of_ok rfl (hR.refl s)

theorem ends_trap (hR : Frame R) (e : Trap) : Ends R Q (throw (.trap e) : M α) := fun s =>
  endsAt_of_error rfl (hR.refl s) nofun

theorem ends_refuse (hR : Frame R) (r : Refusal) : Ends R Q (throw (.refuse r) : M α) := fun s =>
  endsAt_of_error rfl (hR.refl s) nofun

theorem ends_modify {f : State → State} (h : ∀ s, Q s (f s)) : Ends R Q (modify f : M PUnit) := fun s =>
  endsAt_of_ok rfl (h s)

theorem endsAt_set {s t : State} (h : Q s t) : EndsAt R Q (set t : M PUnit) s := endsAt_of_ok rfl h

theorem ends_raiseIf (hR : Frame R) (b : Bool) (e : Trap) : Ends R R (raiseIf b e) := by
  cases b
  · exact ends_pure hR ()
  · exact ends_trap hR e

theorem ends_doIf (hR : Frame R) (b : Bool) {x : M Unit} (hx : Ends R R x) : Ends R R (doIf b x) := by
  cases b
  · exact ends_pure hR ()
  · exact hx

end

/-! ### Bus cycles and program-space accesses never stop the CPU -/

/-- What a bus cycle may change that is no store of the program: it notes nothing. -/
structure CycleOnly (s t : State) : Prop where
  same : t = { s with mem := t.mem, admp := t.admp, events := t.events, freeCount := t.freeCount }
  wf : s.mem.wf = true → t.mem.wf = true

theorem cycleOnly_frame : Frame CycleOnly where
  refl _ := ⟨rfl, id⟩
  trans {s t u} h1 h2 := ⟨by rw [h2.same, h1.same], fun h => h2.wf (h1.wf h)⟩

theorem cycleOnly_phase : Phase CycleOnly CycleOnly := phase_self cycleOnly_frame

theorem busOnly_phase : Phase BusOnly BusOnly := phase_self busOnly_frame

theorem CycleOnly.busOnly {s t : State} (h : CycleOnly s t) : BusOnly s t := ⟨by rw [h.same], h.wf⟩

theorem busOnly_ends_of_cycle {α : Type} {x : M α} (h : Ends CycleOnly CycleOnly x) : Ends BusOnly BusOnly x :=
  ends_imp (fun _ _ => CycleOnly.busOnly) (fun _ _ => CycleOnly.busOnly) h

theorem admpTick_cycleOnly : Ends CycleOnly CycleOnly admpTick := by
  refine ends_modify fun s => ?_
  split
  · exact cycleOnly_frame.refl s
  · exact ⟨rfl, wf_writeCells _ _⟩

theorem busRead_cycleOnly (wide : Bool) (pa : Word) : Ends CycleOnly CycleOnly (busRead wide pa) := by
  have hcheck := fun (c : Config) (w : Word) => ends_bind cycleOnly_phase
    (ends_raiseIf cycleOnly_frame (Config.parityError c wide pa) .parity) (fun _ _ _ _ => ends_pure cycleOnly_frame w)
  refine ends_bind cycleOnly_phase admpTick_cycleOnly (fun _ _ _ _ => ends_get_bind fun s => ?_)
  cases Config.answers s.cfg false wide pa with
  | none => exact ends_trap cycleOnly_frame _ s
  | some k =>
    cases k
    case ram => exact hcheck _ _ s
    case rom => exact hcheck _ _ s
    case device => exact endsAt_bind cycleOnly_phase (endsAt_set ⟨rfl, id⟩) (fun _ t _ _ => hcheck _ _ t)

/-- A write cycle keeps what a bus cycle keeps and a store keeps. -/
theorem busWrite_ends {R : State → State → Prop} (hR : Frame R) (hc : ∀ s t, CycleOnly s t → R s t)
    {own wide : Bool} {pa v : Word} (hs : ∀ s, R s (s.store own wide pa v)) : Ends R R (busWrite own wide pa v) := by
  refine ends_bind (phase_self hR) (ends_imp hc hc admpTick_cycleOnly) (fun _ _ _ _ => ends_get_bind fun s => ?_)
  cases Config.answers s.cfg true wide pa with
  | none => exact ends_trap hR _ s
  | some k =>
    cases k
    case ram => exact endsAt_set (hs s)
    case rom => exact ends_refuse hR _ s
    case device => exact endsAt_set (hc _ _ ⟨rfl, id⟩)

theorem busWrite_busOnly_ends (own wide : Bool) (pa v : Word) : Ends BusOnly BusOnly (busWrite own wide pa v) :=
  busWrite_ends busOnly_frame (fun _ _ => CycleOnly.busOnly) fun _ => ⟨rfl, wf_write⟩

/-- A push of an entry is no store of the program (log 7). -/
theorem busWrite_false_cycleOnly (wide : Bool) (pa v : Word) : Ends CycleOnly CycleOnly (busWrite false wide pa v) :=
  busWrite_ends cycleOnly_frame (fun _ _ => id) fun _ => ⟨rfl, wf_write⟩

theorem memRead_cycleOnly (wide : Bool) (a : Word) : Ends CycleOnly CycleOnly (memRead wide a) :=
  ends_bind cycleOnly_phase (ends_raiseIf cycleOnly_frame _ _)
    (fun _ _ _ _ => ends_get_bind fun s => busRead_cycleOnly _ _ s)

theorem memWrite_ends (wide : Bool) (a v : Word) : Ends BusOnly BusOnly (memWrite wide a v) :=
  ends_bind busOnly_phase (ends_raiseIf busOnly_frame _ _)
    (fun _ _ _ _ => ends_get_bind fun s => busWrite_busOnly_ends _ _ _ _ s)

theorem streamWrite_ends (wide : Bool) (a v : Word) : Ends BusOnly BusOnly (streamWrite wide a v) :=
  ends_bind busOnly_phase (ends_raiseIf busOnly_frame _ _)
    (fun _ _ _ _ => ends_get_bind fun s => busWrite_busOnly_ends _ _ _ _ s)

theorem prefetched_cycleOnly (wide : Bool) (pa v : Word) : Ends CycleOnly CycleOnly (prefetched wide pa v) := by
  refine ends_get_bind fun s => ?_
  split
  · exact endsAt_bind cycleOnly_phase (endsAt_set ⟨rfl, id⟩) (fun _ t _ _ => ends_pure cycleOnly_frame _ t)
  · exact ends_pure cycleOnly_frame _ s

theorem streamRead_cycleOnly (wide : Bool) (a : Word) : Ends CycleOnly CycleOnly (streamRead wide a) :=
  ends_bind cycleOnly_phase (ends_raiseIf cycleOnly_frame _ _) (fun _ _ _ _ => ends_get_bind fun s =>
    ends_bind cycleOnly_phase (busRead_cycleOnly _ _) (fun _ _ _ _ => prefetched_cycleOnly _ _ _) s)

theorem pstackRead_cycleOnly (wide : Bool) (a : Word) : Ends CycleOnly CycleOnly (pstackRead wide a) :=
  ends_get_bind fun s =>
    ends_bind cycleOnly_phase (ends_raiseIf cycleOnly_frame _ _) (fun _ _ _ _ => busRead_cycleOnly _ _) s

theorem pstackWrite_ends (wide : Bool) (a v : Word) : Ends BusOnly BusOnly (pstackWrite wide a v) :=
  ends_get_bind fun s =>
    ends_bind busOnly_phase (ends_raiseIf busOnly_frame _ _) (fun _ _ _ _ => busWrite_busOnly_ends _ _ _ _) s

theorem readLoc_cycleOnly (n : Nat) (l : Loc) : Ends CycleOnly CycleOnly (readLoc n l) := by
  have hp := fun (v : BitVec n) => ends_pure cycleOnly_frame v
  cases l with
  | reg r => exact ends_get_bind fun s => hp _ s
  | spReg => exact ends_get_bind fun s => hp _ s
  | mem a => exact ends_bind cycleOnly_phase (memRead_cycleOnly _ _) (fun _ _ _ _ => hp _)
  | imm a => exact ends_bind cycleOnly_phase (streamRead_cycleOnly _ _) (fun _ _ _ _ => hp _)
  | pstk a => exact ends_bind cycleOnly_phase (pstackRead_cycleOnly _ _) (fun _ _ _ _ => hp _)

/-! ### What an instruction may change

A field of these relations that is not given is closed by `rfl`, or by the identity for an implication: a proof about an
update of the state names only what the update changes. -/

/-- The stuck bits and the canonical form of memory stay where they hold, and the configuration stays. -/
structure Sound (s t : State) : Prop where
  cfg : t.cfg = s.cfg := by intros; rfl
  sp_even : s.sp.getLsbD 0 = false → t.sp.getLsbD 0 = false := by exact id
  pc_even : s.pc.getLsbD 0 = false → t.pc.getLsbD 0 = false := by exact id
  sps_even : s.sps.getLsbD 0 = false → t.sps.getLsbD 0 = false := by exact id
  mk_bit15 : s.imk.getLsbD 15 = false → t.imk.getLsbD 15 = false := by exact id
  mem_wf : s.mem.wf = true → t.mem.wf = true := by exact id

/-- What instruction `i` leaves as it was, however it ends: also where it ends in a trap. -/
structure After (i : Instr) (s t : State) : Prop extends Sound s t where
  reg : ∀ r, i.writesG r = false → t.getG r = s.getG r := by intros; rfl
  high : i.isByte = true → ∀ r, (t.getG r).extractLsb' 8 8 = (s.getG r).extractLsb' 8 8 := by intros; rfl
  sp : i.writesSp = false → t.sp = s.sp := by intros; rfl
  lp : (∀ o, i ≠ .clp o) → i ≠ .rst → t.lp = s.lp := by intros; rfl
  imk : (∀ o, i ≠ .cmk o) → (∀ o, i ≠ .dmi o) → (∀ o, i ≠ .mki o) → i ≠ .rst → t.imk = s.imk := by intros; rfl

/-- What instruction `i` leaves besides, where no exception is taken. -/
structure Quiet (i : Instr) (s t : State) : Prop extends After i s t where
  unit : i.isAstrom = false → t.m = s.m ∧ t.mf = s.mf := by intros; exact ⟨rfl, rfl⟩
  run : i ≠ .halt → i ≠ .wait → t.run = s.run := by intros; rfl
  bpArmed : t.bpArmed = s.bpArmed := by intros; rfl
  inp : t.inp = s.inp := by intros; rfl
  script : t.script = s.script := by intros; rfl
  stale : t.stale = s.stale := by intros; rfl
  noBase : t.noBase = s.noBase := by intros; rfl

/-- The flags and fields of the PSW after instruction `i`: its row of 10_state.md R44, where it has one. -/
structure PswAfter (i : Instr) (p p' : Word) : Prop where
  base : ∀ l, pswBase l p' = pswBase l p
  b : ∀ l, pswB l p' = pswB l p
  level : (∀ l, i ≠ .cnm l) → pswLevel p' = pswLevel p
  row : ∀ row, i.flagRow = some row →
    row.c.allows (pswC p) (pswC p') ∧ row.v.allows (pswV p) (pswV p') ∧
    row.z.allows (pswZ p) (pswZ p') ∧ row.s.allows (pswS p) (pswS p') ∧
    pswT1 p' = pswT1 p ∧ pswT2 p' = pswT2 p ∧ pswT3 p' = pswT3 p

/-- Midway in instruction `i`: the PSW and SPS are still those of its start. -/
structure Partly (i : Instr) (s t : State) : Prop extends Quiet i s t where
  psw : t.psw = s.psw := by intros; rfl
  sps : t.sps = s.sps := by intros; rfl

/-- At the end of instruction `i`. -/
structure Done (i : Instr) (s t : State) : Prop extends Quiet i s t where
  flags : PswAfter i s.psw t.psw
  sps : i.writesSps = false → t.sps = s.sps := by intros; rfl

section
variable {i : Instr}

theorem Sound.trans {s t u : State} (h : Sound s t) (k : Sound t u) : Sound s u where
  cfg := k.cfg.trans h.cfg
  sp_even := k.sp_even ∘ h.sp_even
  pc_even := k.pc_even ∘ h.pc_even
  sps_even := k.sps_even ∘ h.sps_even
  mk_bit15 := k.mk_bit15 ∘ h.mk_bit15
  mem_wf := k.mem_wf ∘ h.mem_wf

theorem After.trans {s t u : State} (h : After i s t) (k : After i t u) : After i s u where
  toSound := h.toSound.trans k.toSound
  reg r hr := (k.reg r hr).trans (h.reg r hr)
  high hb r := (k.high hb r).trans (h.high hb r)
  sp hw := (k.sp hw).trans (h.sp hw)
  lp h1 h2 := (k.lp h1 h2).trans (h.lp h1 h2)
  imk h1 h2 h3 h4 := (k.imk h1 h2 h3 h4).trans (h.imk h1 h2 h3 h4)

theorem Quiet.trans {s t u : State} (h : Quiet i s t) (k : Quiet i t u) : Quiet i s u where
  toAfter := h.toAfter.trans k.toAfter
  unit hu := ⟨(k.unit hu).1.trans (h.unit hu).1, (k.unit hu).2.trans (h.unit hu).2⟩
  run h1 h2 := (k.run h1 h2).trans (h.run h1 h2)
  bpArmed := k.bpArmed.trans h.bpArmed
  inp := k.inp.trans h.inp
  script := k.script.trans h.script
  stale := k.stale.trans h.stale
  noBase := k.noBase.trans h.noBase

theorem after_frame (i : Instr) : Frame (After i) := ⟨fun _ => {}, After.trans⟩

theorem partly_frame (i : Instr) : Frame (Partly i) where
  refl _ := {}
  trans h k := { h.toQuiet.trans k.toQuiet with psw := k.psw.trans h.psw, sps := k.sps.trans h.sps }

theorem partly_phase (i : Instr) : Phase (Partly i) (Partly i) := phase_self (partly_frame i)

theorem done_phase (i : Instr) : Phase (Partly i) (Done i) where
  mid := partly_frame i
  absorb h k := { h.toQuiet.trans k.toQuiet with
    flags := h.psw ▸ k.flags
    sps := fun hw => (k.sps hw).trans h.sps }

/-- What follows the end of an instruction and changes neither PSW nor SPS. -/
theorem Done.trans_partly {s t u : State} (h : Done i s t) (k : Partly i t u) : Done i s u :=
  { h.toQuiet.trans k.toQuiet with
    flags := k.psw ▸ h.flags
    sps := fun hw => k.sps.trans (h.sps hw) }

end

section
variable {i : Instr} {n : Nat} {f d o : Operand}

/-! ### Updates in the middle of an instruction -/

theorem Partly.of_busOnly {s t : State} (h : BusOnly s t) : Partly i s t := by
  obtain ⟨mem, stored, admp, events, count, rfl, hwf⟩ : ∃ mem stored admp events count,
      t = { s with mem := mem, stored := stored, admp := admp, events := events, freeCount := count } ∧
      (s.mem.wf = true → mem.wf = true) := ⟨_, _, _, _, _, h.same, h.wf⟩
  exact { mem_wf := hwf }

theorem partly_setPc (s : State) (v : Word) : Partly i s (s.setPc v) where
  pc_even _ := mask_even v

theorem partly_setSp (hw : i.writesSp = true) (s : State) (v : Word) : Partly i s (s.setSp v) where
  sp_even _ := mask_even v
  sp hn := absurd (hw.symm.trans hn) nofun

theorem partly_setG {r : GReg} (hw : i.writesG r = true) (s : State) {v : Word}
    (hb : i.isByte = true → v.extractLsb' 8 8 = (s.getG r).extractLsb' 8 8) : Partly i s (s.setG r v) := by
  have hreg : ∀ q, i.writesG q = false → (s.setG r v).getG q = s.getG q := fun q hq =>
    setG_getG_other s r q v fun hqr => by rw [hqr, hw] at hq; cases hq
  have hhigh : i.isByte = true → ∀ q, ((s.setG r v).getG q).extractLsb' 8 8 = (s.getG q).extractLsb' 8 8 := by
    intro hbyte q
    by_cases hq : q = r
    · rw [hq, setG_getG_same, hb hbyte]
    · rw [setG_getG_other s r q v hq]
  cases r <;> exact { reg := hreg, high := hhigh }

/-! ### Operand accesses in the middle of an instruction -/

theorem partly_of_bus_ends {α : Type} {x : M α} (h : Ends BusOnly BusOnly x) : Ends (Partly i) (Partly i) x :=
  ends_imp (fun _ _ => .of_busOnly) (fun _ _ => .of_busOnly) h

theorem partly_of_cycle_ends {α : Type} {x : M α} (h : Ends CycleOnly CycleOnly x) : Ends (Partly i) (Partly i) x :=
  partly_of_bus_ends (busOnly_ends_of_cycle h)

theorem fetch16_partly : Ends (Partly i) (Partly i) fetch16 :=
  ends_get_bind fun s => ends_bind (partly_phase i) (partly_of_cycle_ends (streamRead_cycleOnly _ _)) (fun _ _ _ _ =>
    ends_bind (partly_phase i) (ends_modify fun s => partly_setPc s _) (fun _ _ _ _ =>
      ends_pure (partly_frame i) _)) s

/-- An operand in an autodecrement or autoincrement mode moves SP (10_state.md R26). -/
theorem writesSp_of_mem_operands (ho : o ∈ i.operands) (hm : o = .autodec ∨ o = .autoinc) : i.writesSp = true := by
  have hany : i.operands.any (fun o => decide (o = .autodec) || decide (o = .autoinc)) = true :=
    List.any_eq_true.2 ⟨o, ho, by simpa using hm⟩
  unfold Instr.writesSp
  split
  case h_6 => rw [hany, Bool.or_true]
  all_goals rfl

theorem writesSp_of_mem_written (hw : .spDirect ∈ i.written) : i.writesSp = true := by
  unfold Instr.writesSp
  split
  case h_6 => rw [decide_eq_true hw, Bool.true_or]
  all_goals rfl

theorem writesG_of_mem_written {r : GReg} (hp : i.writesPair = false) (hw : .direct r ∈ i.written) :
    i.writesG r = true := by
  unfold Instr.writesG
  split
  · rfl
  · rw [if_neg (by simp [hp]), decide_eq_true hw]

theorem writesG_of_pair {p : Pair} {r : GReg} (hp : i.writesPair = true) (hw : o ∈ i.written)
    (ho : pairOf o = some p) (hr : pairHas p r = true) : i.writesG r = true := by
  unfold Instr.writesG
  split
  · rfl
  · rw [if_pos hp]
    exact List.any_eq_true.2 ⟨o, hw, by rw [ho]; exact hr⟩

theorem locate_partly (ho : o ∈ i.operands) : Ends (Partly i) (Partly i) (locate o) := by
  have hp := fun (l : Loc) => ends_pure (partly_frame i) l
  have hfetch := fun {β : Type} (g : Word → M β) (hg : ∀ w, Ends (Partly i) (Partly i) (g w)) =>
    ends_bind (partly_phase i) fetch16_partly (fun w _ _ _ => hg w)
  have hread := fun (a : Word) => ends_bind (partly_phase i) (partly_of_cycle_ends (memRead_cycleOnly true a))
    (fun p _ _ _ => hp (.mem p))
  cases o with
  | direct r => exact hp _
  | indirect r => exact ends_get_bind fun s => hp _ s
  | indexed r => exact hfetch _ fun w => ends_get_bind fun s => hp _ s
  | indexedIndirect r => exact hfetch _ fun w => ends_get_bind fun s => hread _ s
  | spDirect => exact hp _
  | autodec =>
    exact ends_bind (partly_phase i)
      (ends_modify fun s => partly_setSp (writesSp_of_mem_operands ho (.inl rfl)) s _)
      (fun _ _ _ _ => ends_get_bind fun s => hp _ s)
  | autoinc =>
    exact ends_get_bind fun s => endsAt_bind (partly_phase i)
      (endsAt_set (partly_setSp (writesSp_of_mem_operands ho (.inr rfl)) s _)) (fun _ t _ _ => hp _ t)
  | stackTop => exact ends_get_bind fun s => hp _ s
  | immediate =>
    exact ends_get_bind fun s => endsAt_bind (partly_phase i) (endsAt_set (partly_setPc s _)) (fun _ t _ _ => hp _ t)
  | absolute => exact hfetch _ fun w => hp _
  | relative => exact ends_get_bind fun s => hfetch _ (fun w => hp _) s
  | relativeIndirect => exact ends_get_bind fun s => hfetch _ (fun w => hread _) s

theorem readLoc_partly (n : Nat) (l : Loc) : Ends (Partly i) (Partly i) (readLoc n l) :=
  partly_of_cycle_ends (readLoc_cycleOnly n l)

theorem readOperand_partly (ho : o ∈ i.operands) : Ends (Partly i) (Partly i) (readOperand n o) :=
  ends_bind (partly_phase i) (locate_partly ho) (fun l _ _ _ => readLoc_partly n l)

/-- A location that instruction `i` may write: a register only where it names it as written. -/
def writesLoc (i : Instr) : Loc → Bool
  | .reg r => i.writesG r
  | .spReg => i.writesSp
  | .mem _ | .imm _ | .pstk _ => true

/-- Whatever `x` answers has the property. -/
def Gives {α : Type} (P : α → Prop) (x : M α) : Prop := ∀ s a t, x s = .ok a t → P a

theorem gives_pure {α : Type} {P : α → Prop} {a : α} (h : P a) : Gives P (pure a : M α) := fun _ _ _ hx => by
  cases hx; exact h

theorem gives_bind {α β : Type} {P : β → Prop} {x : M α} {g : α → M β} (h : ∀ a, Gives P (g a)) :
    Gives P (x >>= g) := fun _ _ _ hx => by
  obtain ⟨a, _, _, hg⟩ := bind_ok.1 hx
  exact h a _ _ _ hg

/-- Only register direct and SP direct locate a register. -/
theorem locate_writesLoc (hp : i.writesPair = false) (ho : o ∈ i.written) :
    Gives (fun l => writesLoc i l = true) (locate o) := by
  cases o with
  | direct r => exact gives_pure (writesG_of_mem_written hp ho)
  | spDirect => exact gives_pure (writesSp_of_mem_written ho)
  | indirect r => exact gives_bind fun _ => gives_pure rfl
  | indexed r => exact gives_bind fun _ => gives_bind fun _ => gives_pure rfl
  | indexedIndirect r => exact gives_bind fun _ => gives_bind fun _ => gives_bind fun _ => gives_pure rfl
  | autodec => exact gives_bind fun _ => gives_bind fun _ => gives_pure rfl
  | autoinc => exact gives_bind fun _ => gives_bind fun _ => gives_pure rfl
  | stackTop => exact gives_bind fun _ => gives_pure rfl
  | immediate => exact gives_bind fun _ => gives_bind fun _ => gives_pure rfl
  | absolute => exact gives_bind fun _ => gives_pure rfl
  | relative => exact gives_bind fun _ => gives_bind fun _ => gives_pure rfl
  | relativeIndirect => exact gives_bind fun _ => gives_bind fun _ => gives_bind fun _ => gives_pure rfl

theorem writeLoc_partly (hb : i.isByte = (n == 8)) {l : Loc} (hl : writesLoc i l = true) (v : BitVec n) :
    Ends (Partly i) (Partly i) (writeLoc n l v) := by
  cases l with
  | reg r =>
    refine ends_modify fun s => partly_setG hl s fun hbyte => ?_
    obtain rfl : n = 8 := eq_of_beq (hb.symm.trans hbyte)
    exact mergeLow_byte_high _ v
  | spReg => exact ends_modify fun s => partly_setSp hl s _
  | mem a => exact partly_of_bus_ends (memWrite_ends _ _ _)
  | imm a => exact partly_of_bus_ends (streamWrite_ends _ _ _)
  | pstk a => exact partly_of_bus_ends (pstackWrite_ends _ _ _)

/-! ### Register pairs in the middle of an instruction -/

theorem locateLong_partly (o : Operand) : Ends (Partly i) (Partly i) (locateLong o) := by
  unfold locateLong
  cases pairOf o with
  | none => exact ends_trap (partly_frame i) _
  | some p => exact ends_pure (partly_frame i) p

theorem locateLong_gives (o : Operand) : Gives (fun p => pairOf o = some p) (locateLong o) := by
  unfold locateLong
  cases pairOf o with
  | none => exact fun _ _ _ h => nomatch h
  | some p => exact gives_pure rfl

theorem readPair_partly (p : Pair) : Ends (Partly i) (Partly i) (readPair p) :=
  ends_get_bind fun s => ends_pure (partly_frame i) _ s

theorem writePair_partly {p : Pair} (hb : i.isByte = false) (hr : ∀ r, pairHas p r = true → i.writesG r = true)
    (v : Long) : Ends (Partly i) (Partly i) (writePair p v) := by
  have hset : ∀ (s : State) (r : GReg) (w : Word), pairHas p r = true → Partly i s (s.setG r w) :=
    fun s r w h => partly_setG (hr r h) s fun hbyte => absurd (hb.symm.trans hbyte) nofun
  have hd : pairHas p (pairDeclared p) = true := by cases p <;> rfl
  have hp : pairHas p (pairPartner p) = true := by cases p <;> rfl
  refine ends_modify fun s => ?_
  unfold State.setPair
  split
  · exact (partly_frame i).trans (hset s _ _ hd) (hset _ _ _ hp)
  · exact (partly_frame i).trans (hset s _ _ hp) (hset _ _ _ hd)

/-! ### The PSW at the end of an instruction -/

/-- The high bits of a word, seen from where they begin. -/
theorem getLsbD_from {a k : Nat} (p : Word) (h : a ≤ k) :
    (decide (k - a < 16 - a) && p.getLsbD (a + (k - a))) = p.getLsbD k := by
  rw [Nat.add_sub_cancel' h]
  by_cases hk : k < 16
  · rw [decide_eq_true (by omega), Bool.true_and]
  · rw [BitVec.getLsbD_of_ge p k (by omega), Bool.and_false]

/-- Bits 3 to 0 of such a PSW are C, V, Z and S; the others are the old ones. -/
theorem getLsbD_withCVZS (p : Word) (c v z s : Bool) (k : Nat) : (withCVZS p c v z s).getLsbD k =
    if k = 0 then s else if k = 1 then z else if k = 2 then v else if k = 3 then c else p.getLsbD k := by
  unfold withCVZS
  show BitVec.getLsbD (w := 12 + 1 + 1 + 1 + 1) _ k = _
  simp only [BitVec.getLsbD_append, BitVec.getLsbD_ofBool, BitVec.getLsbD_extractLsb']
  match k with
  | 0 | 1 | 2 | 3 => rfl
  | k + 4 => exact getLsbD_from p (Nat.le_add_left 4 k)

/-- Bits 6 to 0 of such a PSW are the codes; the others are the old ones. -/
theorem getLsbD_withCodes (p : Word) (c : BitVec 7) (k : Nat) :
    (withCodes p c).getLsbD k = if k < 7 then c.getLsbD k else p.getLsbD k := by
  unfold withCodes
  show BitVec.getLsbD (w := 9 + 7) _ k = _
  simp only [BitVec.getLsbD_append, BitVec.getLsbD_extractLsb']
  split
  · rfl
  · exact getLsbD_from p (by omega)

/-- Bits 11 to 8 of such a PSW are the level; the others are the old ones. -/
theorem getLsbD_withLevel (p : Word) (l : BitVec 4) (k : Nat) : (withLevel p l).getLsbD k =
    if k < 8 then p.getLsbD k else if k < 12 then l.getLsbD (k - 8) else p.getLsbD k := by
  unfold withLevel
  show BitVec.getLsbD (w := 4 + 4 + 8) _ k = _
  simp only [BitVec.getLsbD_append, BitVec.getLsbD_extractLsb', Nat.sub_sub]
  by_cases h8 : k < 8
  · simp [h8]
  · rw [if_neg h8, if_neg h8]
    by_cases h12 : k < 12
    · rw [if_pos (by omega), if_pos h12]
    · rw [if_neg (by omega), if_neg h12]
      exact getLsbD_from p (by omega)

/-- Two words that agree on bits 15 to 7 have the same BASE, B and LEVEL. -/
theorem fields_eq_of_high {p p' : Word} (h : ∀ k, 7 ≤ k → p'.getLsbD k = p.getLsbD k) :
    (∀ l, pswBase l p' = pswBase l p) ∧ (∀ l, pswB l p' = pswB l p) ∧ pswLevel p' = pswLevel p := by
  have hbit : ∀ b, pswBitAt p' b = pswBitAt p b := by
    intro b
    cases b <;> exact h _ (by decide)
  refine ⟨fun l => by simp only [pswBase, hbit], fun l => hbit l.b, ?_⟩
  unfold pswLevel
  ext k hk
  simp only [BitVec.getElem_extractLsb']
  exact h _ (by omega)

/-- An instruction with no row that replaces codes only. -/
theorem pswAfter_withCodes (hrow : i.flagRow = none) (p : Word) (c : BitVec 7) : PswAfter i p (withCodes p c) := by
  obtain ⟨hbase, hb, hlevel⟩ := fields_eq_of_high (p := p) (p' := withCodes p c) fun k hk => by
    rw [getLsbD_withCodes, if_neg (by omega)]
  exact ⟨hbase, hb, fun _ => hlevel, fun _ h => nomatch hrow.symm.trans h⟩

/-- An instruction that replaces C, V, Z and S as its row allows. -/
theorem pswAfter_withCVZS {row : FlagRow} {p : Word} {c v z s : Bool} (hrow : i.flagRow = some row)
    (hc : row.c.allows (pswC p) c) (hv : row.v.allows (pswV p) v) (hz : row.z.allows (pswZ p) z)
    (hs : row.s.allows (pswS p) s) : PswAfter i p (withCVZS p c v z s) := by
  obtain ⟨hbase, hb, hlevel⟩ := fields_eq_of_high (p := p) (p' := withCVZS p c v z s) fun k hk => by
    rw [getLsbD_withCVZS, if_neg (by omega), if_neg (by omega), if_neg (by omega), if_neg (by omega)]
  refine ⟨hbase, hb, fun _ => hlevel, fun row' hrow' => ?_⟩
  obtain rfl : row = row' := Option.some.inj (hrow.symm.trans hrow')
  simp only [pswC, pswV, pswZ, pswS, pswT1, pswT2, pswT3, getLsbD_withCVZS] at *
  exact ⟨hc, hv, hz, hs, rfl, rfl, rfl⟩

/-- An instruction that leaves the PSW, and whose row says so where it has one. -/
theorem pswAfter_refl (hrow : ∀ row, i.flagRow = some row → row = ⟨.kept, .kept, .kept, .kept⟩) (p : Word) :
    PswAfter i p p :=
  ⟨fun _ => rfl, fun _ => rfl, fun _ => rfl, fun row h => by
    rw [hrow row h]; exact ⟨rfl, rfl, rfl, rfl, rfl, rfl, rfl⟩⟩

/-- CNM replaces LEVEL only (46_parameter.md R369). -/
theorem pswAfter_cnm (l : BitVec 4) (p : Word) : PswAfter (.cnm l) p (withLevel p l) := by
  have hbit : ∀ b, pswBitAt (withLevel p l) b = pswBitAt p b := by
    intro b
    cases b <;> exact getLsbD_withLevel p l _
  have hcode : ∀ k < 8, (withLevel p l).getLsbD k = p.getLsbD k := fun k hk => by
    rw [getLsbD_withLevel, if_pos hk]
  refine ⟨fun _ => by simp only [pswBase, hbit], fun _ => hbit _, fun h => absurd rfl (h l), fun row h => ?_⟩
  cases h
  exact ⟨hcode _ (by decide), hcode _ (by decide), hcode _ (by decide), hcode _ (by decide), hcode _ (by decide),
    hcode _ (by decide), hcode _ (by decide)⟩

end

/-! ### What entries may change -/

/-- Entries change PC, SPS, PSW, the processor state, `bp_armed`, the request lines and what a bus cycle may, nothing
else; they are no store of the program (log 7). -/
structure EventOnly (s t : State) : Prop where
  same : t = { s with
    pc := t.pc, sps := t.sps, psw := t.psw, run := t.run, bpArmed := t.bpArmed, inp := t.inp
    mem := t.mem, admp := t.admp, events := t.events, freeCount := t.freeCount }
  wf : s.mem.wf = true → t.mem.wf = true := by exact id
  sps_even : s.sps.getLsbD 0 = false → t.sps.getLsbD 0 = false := by exact id
  pc_even : s.pc.getLsbD 0 = false → t.pc.getLsbD 0 = false := by exact id

theorem eventOnly_frame : Frame EventOnly where
  refl _ := { same := rfl }
  trans {s t u} h1 h2 := ⟨by rw [h2.same, h1.same], h2.wf ∘ h1.wf, h2.sps_even ∘ h1.sps_even, h2.pc_even ∘ h1.pc_even⟩

theorem CycleOnly.eventOnly {s t : State} (h : CycleOnly s t) : EventOnly s t :=
  ⟨by rw [h.same], h.wf, by rw [h.same]; exact id, by rw [h.same]; exact id⟩

theorem EventOnly.sound {s t : State} (h : EventOnly s t) : Sound s t :=
  ⟨by rw [h.same], by rw [h.same]; exact id, h.pc_even, h.sps_even, by rw [h.same]; exact id, h.wf⟩

theorem EventOnly.getG_eq {s t : State} (h : EventOnly s t) (r : GReg) : t.getG r = s.getG r := by
  rw [h.same]; rfl

theorem EventOnly.after {i : Instr} {s t : State} (h : EventOnly s t) : After i s t :=
  { h.sound with
    reg := fun r _ => h.getG_eq r
    high := fun _ r => by rw [h.getG_eq r]
    sp := fun _ => by rw [h.same]
    lp := fun _ _ => by rw [h.same]
    imk := fun _ _ _ _ => by rw [h.same] }

/-- Returns and the exchange of EXS change what entries change, and may store. -/
theorem after_of_entryOnly {i : Instr} {s t : State} (h : EntryOnly s t) : After i s t := by
  have hreg : ∀ r, t.getG r = s.getG r := fun r => by rw [h.same]; rfl
  exact {
    cfg := by rw [h.same]
    sp_even := by rw [h.same]; exact id
    pc_even := h.pc_even
    sps_even := h.sps_even
    mk_bit15 := by rw [h.same]; exact id
    mem_wf := h.wf
    reg := fun r _ => hreg r
    high := fun _ r => by rw [hreg r]
    sp := fun _ => by rw [h.same]
    lp := fun _ _ => by rw [h.same]
    imk := fun _ _ _ _ => by rw [h.same] }

theorem vecRead_eventOnly (a : Word) : Keeps EventOnly (vecRead a) :=
  keeps_of_ends (fun _ _ => CycleOnly.eventOnly) (fun _ _ => CycleOnly.eventOnly) (memRead_cycleOnly true a)

theorem pushSystem_eventOnly (v : Word) : Keeps EventOnly (pushSystem false v) := by
  have hwrite := fun (a : Word) => keeps_of_ends (fun _ _ => CycleOnly.eventOnly) (fun _ _ => CycleOnly.eventOnly)
    (busWrite_false_cycleOnly true a v)
  refine keeps_bind eventOnly_frame (keeps_modify fun s => ⟨rfl, id, fun _ => mask_even _, id⟩) fun _ =>
    keeps_get_bind fun s => ?_
  exact keeps_get_bind (fun t => keeps_bind eventOnly_frame (keeps_haltIf eventOnly_frame _)
    (fun _ => keeps_haltOnTrap (hwrite _)) t) s

/-- Taking an exception (60_exceptions.md R450). -/
theorem trapEntry_eventOnly (savedPc vec : Word) : Keeps EventOnly (trapEntry savedPc vec) := by
  refine keeps_bind eventOnly_frame (pushSystem_eventOnly _) fun _ => keeps_get_bind fun s => ?_
  refine keeps_bind eventOnly_frame (pushSystem_eventOnly _) (fun _ => ?_) s
  refine keeps_bind eventOnly_frame (vecRead_eventOnly _) fun _ => ?_
  refine keeps_bind eventOnly_frame (vecRead_eventOnly _) fun _ => ?_
  exact keeps_modify fun s => ⟨rfl, id, id, fun _ => mask_even _⟩

/-- However long the chain of entries of a trap is. -/
theorem raiseTrap_eventOnly {k : Nat} {savedPc : Word} {e : Trap} {s t : State}
    (h : raiseTrap k savedPc e s = .next t) : EventOnly s t := by
  induction k generalizing e s with
  | zero => cases h
  | succ k ih =>
    have hentry := trapEntry_eventOnly savedPc (trapVector e) { s with bpArmed := false }
    have hfrom : ∀ {u}, EventOnly { s with bpArmed := false } u → EventOnly s u :=
      fun hu => eventOnly_frame.trans { same := rfl } hu
    unfold raiseTrap at h
    split at h
    · next hx => cases h; exact hfrom (keepsAt_ok hentry hx)
    · next hx => exact eventOnly_frame.trans (hfrom (keepsAt_error hentry hx)) (ih h)
    · next hx => cases h; exact eventOnly_frame.trans (hfrom (keepsAt_error hentry hx)) { same := rfl }
    · cases h

theorem raiseInInstr_eventOnly {e : Trap} {s t : State} (h : raiseInInstr e s = .next t) : EventOnly s t := by
  unfold raiseInInstr at h
  split at h
  · exact eventOnly_frame.trans { same := rfl } (raiseTrap_eventOnly h)
  · exact raiseTrap_eventOnly h

section
variable {R : State → State → Prop} (hR : Frame R) (hevent : ∀ s t, EventOnly s t → R s t) {x : M Unit}
include hR hevent

/-- What the meaning of an instruction and entries keep holds of the state the instruction answers. -/
theorem runM_next (hx : Keeps R x) {s t : State} (h : runM x s = .next t) : R s t := by
  obtain ⟨u, hxu, hu⟩ | ⟨e, u, hxu, hu⟩ | ⟨u, hxu, hu⟩ | ⟨_, _, _, hu⟩ := runM_cases x s
  · cases hu.symm.trans h; exact keepsAt_ok (hx s) hxu
  · exact hR.trans (keepsAt_error (hx s) hxu) (hevent _ _ (raiseInInstr_eventOnly (hu.symm.trans h)))
  · cases hu.symm.trans h; exact hR.trans (keepsAt_error (hx s) hxu) (hevent _ _ { same := rfl })
  · cases hu.symm.trans h

/-- The same of an entry or a reset. -/
theorem runEvent_next (hx : Keeps R x) {s t : State} (h : runEvent x s = .next t) : R s t := by
  unfold runEvent at h
  split at h
  · next hxu => cases h; exact keepsAt_ok (hx s) hxu
  · next hxu => exact hR.trans (keepsAt_error (hx s) hxu) (hevent _ _ (raiseTrap_eventOnly h))
  · next hxu => cases h; exact hR.trans (keepsAt_error (hx s) hxu) (hevent _ _ { same := rfl })
  · cases h

/-- What the registers of a reset, its vector reads and its loads keep, the reset sequence keeps. -/
theorem resetSequence_keeps (hregs : ∀ s : State, R s s.resetRegs)
    (hload : ∀ (s : State) p q, R s { (s.setPsw p).setPc q with bpArmed := false, run := .halt }) :
    Keeps R resetSequence := by
  have hread := fun a => keeps_imp hevent (vecRead_eventOnly a)
  exact keeps_bind hR (keeps_modify hregs) fun _ => keeps_bind hR (hread _) fun p =>
    keeps_bind hR (hread _) fun q => keeps_modify fun s => hload s p q

end

theorem enterEvent_eventOnly {vec : Word} {s t : State} (h : enterEvent vec s = .next t) : EventOnly s t :=
  runEvent_next eventOnly_frame (fun _ _ => id) (trapEntry_eventOnly _ _) h

/-! ### Every entry lowers SPS -/

/-- Masking with 0xFFFE takes bit 0 off the value. -/
theorem toNat_mask_even (v : Word) : (v &&& 0xFFFE).toNat = v.toNat / 2 * 2 := by
  have hshift : v &&& (0xFFFE : Word) = v >>> 1 <<< 1 := by
    refine BitVec.eq_of_getLsbD_eq fun k hk => ?_
    rw [getLsbD_and_mask (b := 0) (by decide)]
    cases k with
    | zero => simp
    | succ k => simp [hk, Nat.add_comm 1 k]
  have hlt := v.isLt
  rw [hshift, BitVec.toNat_shiftLeft, BitVec.toNat_ushiftRight, Nat.shiftLeft_eq, Nat.shiftRight_eq_div_pow]
  omega

/-- A push inside the limits: SPS went down, from at most the word above the top of the stack. -/
def SpsPushed (s t : State) : Prop := t.sps.toNat < s.sps.toNat ∧ s.sps.toNat ≤ 0xF801

/-- Pushes of which the last one may have failed: SPS went down, or round to 0xFFFE from a place far from it. -/
def SpsFell (s t : State) : Prop := t.sps.toNat < s.sps.toNat ∨ (t.sps.toNat = 0xFFFE ∧ s.sps.toNat ≤ 0xF801)

theorem SpsFell.ne {s t : State} (h : SpsFell s t) : t.sps ≠ s.sps := fun heq => by
  unfold SpsFell at h
  rw [heq] at h
  omega

theorem SpsPushed.fell {s t : State} (h : SpsPushed s t) : SpsFell s t := .inl h.1

theorem SpsPushed.trans_fell {s t u : State} (h : SpsPushed s t) (k : SpsFell t u) : SpsFell s u := by
  unfold SpsPushed SpsFell at *
  omega

theorem SpsPushed.of_sps_eq {s t u : State} (h : SpsPushed s t) (hu : u.sps = t.sps) : SpsPushed s u :=
  ⟨hu ▸ h.1, h.2⟩

theorem SpsPushed.trans {s t u : State} (h : SpsPushed s t) (k : SpsPushed t u) : SpsPushed s u :=
  ⟨k.1.trans h.1, h.2⟩

theorem pushSystem_apply (own : Bool) (v : Word) (s : State) :
    pushSystem own v s = sstackWrite own (s.setSps (s.sps - 2)).sps v (s.setSps (s.sps - 2)) := rfl

theorem sps_of_push {s t : State} (h : BusOnly (s.setSps (s.sps - 2)) t) :
    t.sps.toNat = (s.sps - 2).toNat / 2 * 2 := by
  rw [h.same]
  exact toNat_mask_even _

/-- A push that ends is inside the stack limits (20_memory.md R81). -/
theorem pushSystem_ok {own : Bool} {v : Word} {s t : State} {a : Unit} (h : pushSystem own v s = .ok a t) :
    SpsPushed s t := by
  rw [pushSystem_apply] at h
  have hsps := sps_of_push (keepsAt_ok (sstackWrite_busOnly _ _ _ _) h)
  rw [sstackWrite, bind_apply, get_apply] at h
  obtain ⟨_, u, hin, _⟩ := bind_ok.1 h
  rw [haltIf_apply] at hin
  split at hin
  · cases hin
  · next hout =>
    simp only [State.outsideStack, setSps_sps, Bool.or_eq_true, decide_eq_true_eq, not_or, toNat_mask_even] at hout
    unfold SpsPushed
    bv_omega

/-- A push that fails is no trap (20_memory.md R81). -/
theorem pushSystem_error {own : Bool} {v : Word} {s t : State} {e : Abort} (h : pushSystem own v s = .error e t) :
    SpsFell s t ∧ ∀ k, e ≠ .trap k := by
  rw [pushSystem_apply] at h
  have hsps := sps_of_push (keepsAt_error (sstackWrite_busOnly _ _ _ _) h)
  refine ⟨by unfold SpsFell; bv_omega, ?_⟩
  rw [sstackWrite, bind_apply, get_apply] at h
  obtain hin | ⟨_, u, _, hwrite⟩ := bind_error.1 h
  · rw [haltIf_apply] at hin
    split at hin <;> cases hin
    exact nofun
  · unfold haltOnTrap at hwrite
    split at hwrite <;> cases hwrite <;> exact nofun

/-- The end of an entry, after its two pushes. -/
def loadVector (vec : Word) : M Unit := do
  let p ← vecRead vec
  let q ← vecRead (vec + 2)
  modify fun s => { (s.setPsw p).setPc q with run := .run }

theorem trapEntry_eq (savedPc vec : Word) : trapEntry savedPc vec =
    (pushSystem false savedPc >>= fun _ => get >>= fun s => pushSystem false s.psw >>= fun _ => loadVector vec) := rfl

theorem loadVector_sps (vec : Word) : Keeps (fun s t => t.sps = s.sps) (loadVector vec) := by
  have hR : Frame (fun s t : State => t.sps = s.sps) := ⟨fun _ => rfl, fun h k => k.trans h⟩
  have hcycle : ∀ s t, CycleOnly s t → t.sps = s.sps := fun s t h => by rw [h.same]
  have hread := fun a => keeps_of_ends hcycle hcycle (memRead_cycleOnly true a)
  exact keeps_bind hR (hread _) fun _ => keeps_bind hR (hread _) fun _ => keeps_modify fun _ => rfl

/-- An entry that ends has pushed. -/
theorem trapEntry_ok {savedPc vec : Word} {s t : State} {a : Unit} (h : trapEntry savedPc vec s = .ok a t) :
    SpsPushed s t := by
  rw [trapEntry_eq] at h
  obtain ⟨_, u, hpc, h⟩ := bind_ok.1 h
  rw [bind_apply, get_apply] at h
  obtain ⟨_, w, hpsw, hload⟩ := bind_ok.1 h
  have hsps : t.sps = w.sps := keepsAt_ok (loadVector_sps vec w) hload
  have hpushed : SpsPushed s w := (pushSystem_ok hpc).trans (pushSystem_ok hpsw)
  exact hpushed.of_sps_eq hsps

/-- An entry that is abandoned has tried to push; where a trap abandons it, it has pushed. -/
theorem trapEntry_error {savedPc vec : Word} {s t : State} {e : Abort} (h : trapEntry savedPc vec s = .error e t) :
    SpsFell s t ∧ ∀ k, e = .trap k → SpsPushed s t := by
  rw [trapEntry_eq] at h
  obtain hpc | ⟨_, u, hpc, h⟩ := bind_error.1 h
  · exact ⟨(pushSystem_error hpc).1, fun k hk => absurd hk ((pushSystem_error hpc).2 k)⟩
  · rw [bind_apply, get_apply] at h
    obtain hpsw | ⟨_, w, hpsw, hload⟩ := bind_error.1 h
    · exact ⟨(pushSystem_ok hpc).trans_fell (pushSystem_error hpsw).1,
        fun k hk => absurd hk ((pushSystem_error hpsw).2 k)⟩
    · have hsps : t.sps = w.sps := keepsAt_error (loadVector_sps vec w) hload
      have hpushed : SpsPushed s t := ((pushSystem_ok hpc).trans (pushSystem_ok hpsw)).of_sps_eq hsps
      exact ⟨hpushed.fell, fun _ _ => hpushed⟩

/-- No chain of entries comes back to the SPS it began with: the push that would wrap round is outside the limits. -/
theorem raiseTrap_fell {k : Nat} {savedPc : Word} {e : Trap} {s t : State}
    (h : raiseTrap k savedPc e s = .next t) : SpsFell s t := by
  induction k generalizing e s with
  | zero => cases h
  | succ k ih =>
    unfold raiseTrap at h
    split at h
    · next hx => cases h; exact (trapEntry_ok hx).fell
    · next hx => exact SpsPushed.trans_fell ((trapEntry_error hx).2 _ rfl) (ih h)
    · next hx => cases h; exact (trapEntry_error hx).1
    · cases h

/-- A trap is seen in SPS: it is not what it was. -/
theorem raiseInInstr_sps_ne {e : Trap} {s t : State} (h : raiseInInstr e s = .next t) : t.sps ≠ s.sps := by
  unfold raiseInInstr at h
  split at h <;> exact (raiseTrap_fell h).ne

/-! ### The shapes of instructions -/

section
variable {i : Instr} {n : Nat} {f d o : Operand}

theorem pswAfter_of_kept (hrow : i.flagRow = some ⟨.kept, .kept, .kept, .kept⟩) (p : Word) : PswAfter i p p :=
  pswAfter_refl (fun _ h => (Option.some.inj (hrow.symm.trans h)).symm) p

/-- An instruction that leaves the PSW ends as it was midway. -/
theorem Partly.done (hrow : i.flagRow = some ⟨.kept, .kept, .kept, .kept⟩) {s t : State} (h : Partly i s t) :
    Done i s t :=
  { h with flags := h.psw ▸ pswAfter_of_kept hrow s.psw, sps := fun _ => h.sps }

/-- Masking with 0x7FFF clears bit 15. -/
theorem mask_bit15 (v : Word) : (v &&& 0x7FFF#16).getLsbD 15 = false := by simp

/-- The last access of an instruction, then its new PSW by the old one. -/
theorem thenFlags_ends {x : State → M Unit} {g : Word → Word} (hx : ∀ s, Ends (Partly i) (Partly i) (x s))
    (hg : ∀ p, PswAfter i p (g p)) : Ends (Partly i) (Done i) (get >>= fun s => x s >>= fun _ => setFlags (g s.psw)) :=
  ends_get_bind fun s => endsAt_bind (done_phase i) (hx s s) fun _ t _ hst =>
    endsAt_of_ok rfl { flags := hst.psw ▸ hg s.psw }

theorem flags_ends {g : Word → Word} (hg : ∀ p, PswAfter i p (g p)) :
    Ends (Partly i) (Done i) (get >>= fun s => setFlags (g s.psw)) :=
  ends_get_bind fun s => endsAt_of_ok rfl { flags := hg s.psw }

theorem twoReadWrite_ends {op : BitVec n → BitVec n → Word → BitVec n × Word} (ho : i.operands = [f, d])
    (hw : i.written = [d]) (hp : i.writesPair = false) (hb : i.isByte = (n == 8))
    (hg : ∀ a b p, PswAfter i p (op a b p).2) : Ends (Partly i) (Done i) (twoReadWrite n op f d) :=
  ends_bind (done_phase i) (readOperand_partly (by simp [ho])) fun sv _ _ _ =>
    ends_bind (done_phase i) (locate_partly (by simp [ho])) fun ld s t hl =>
      ends_bind (done_phase i) (readLoc_partly n ld) fun dv _ _ _ =>
        thenFlags_ends (fun _ => writeLoc_partly hb (locate_writesLoc hp (by simp [hw]) s ld t hl) _) (hg sv dv)

theorem twoReadOnly_ends {op : BitVec n → BitVec n → Word → BitVec n × Word} (ho : i.operands = [f, d])
    (hg : ∀ a b p, PswAfter i p (op a b p).2) : Ends (Partly i) (Done i) (twoReadOnly n op f d) :=
  ends_bind (done_phase i) (readOperand_partly (by simp [ho])) fun sv _ _ _ =>
    ends_bind (done_phase i) (readOperand_partly (by simp [ho])) fun dv _ _ _ => flags_ends (hg sv dv)

theorem moveOp_ends (ho : i.operands = [f, d]) (hw : i.written = [d]) (hp : i.writesPair = false)
    (hb : i.isByte = (n == 8)) (hg : ∀ (v : BitVec n) p, PswAfter i p (logicResult v p).2) :
    Ends (Partly i) (Done i) (moveOp n f d) :=
  ends_bind (done_phase i) (readOperand_partly (by simp [ho])) fun sv _ _ _ =>
    ends_bind (done_phase i) (locate_partly (by simp [ho])) fun ld s t hl =>
      ends_bind (done_phase i) (writeLoc_partly hb (locate_writesLoc hp (by simp [hw]) s ld t hl) _)
        fun _ _ _ _ => flags_ends (hg sv)

theorem exchangeOp_ends (ho : i.operands = [f, d]) (hw : i.written = [f, d]) (hp : i.writesPair = false)
    (hb : i.isByte = (n == 8)) (hg : ∀ (v : BitVec n) p, PswAfter i p (logicResult v p).2) :
    Ends (Partly i) (Done i) (exchangeOp n f d) :=
  ends_bind (done_phase i) (locate_partly (by simp [ho])) fun ls s t hls =>
    ends_bind (done_phase i) (readLoc_partly n ls) fun sv _ _ _ =>
      ends_bind (done_phase i) (locate_partly (by simp [ho])) fun ld s' t' hld =>
        ends_bind (done_phase i) (readLoc_partly n ld) fun dv _ _ _ =>
          ends_bind (done_phase i) (writeLoc_partly hb (locate_writesLoc hp (by simp [hw]) s ls t hls) _)
            fun _ _ _ _ =>
              ends_bind (done_phase i) (writeLoc_partly hb (locate_writesLoc hp (by simp [hw]) s' ld t' hld) _)
                fun _ _ _ _ => flags_ends (hg sv)

theorem oneReadWrite_ends {op : BitVec n → Word → BitVec n × Word} (ho : i.operands = [d]) (hw : i.written = [d])
    (hp : i.writesPair = false) (hb : i.isByte = (n == 8)) (hg : ∀ a p, PswAfter i p (op a p).2) :
    Ends (Partly i) (Done i) (oneReadWrite n op d) :=
  ends_bind (done_phase i) (locate_partly (by simp [ho])) fun ld s t hl =>
    ends_bind (done_phase i) (readLoc_partly n ld) fun dv _ _ _ =>
      thenFlags_ends (fun _ => writeLoc_partly hb (locate_writesLoc hp (by simp [hw]) s ld t hl) _) (hg dv)

theorem oneReadOnly_ends {op : BitVec n → Word → BitVec n × Word} (ho : i.operands = [d])
    (hg : ∀ a p, PswAfter i p (op a p).2) : Ends (Partly i) (Done i) (oneReadOnly n op d) :=
  ends_bind (done_phase i) (readOperand_partly (by simp [ho])) fun dv _ _ _ => flags_ends (hg dv)

theorem oneWriteOnly_ends {op : Word → BitVec n × Word} (ho : i.operands = [d]) (hw : i.written = [d])
    (hp : i.writesPair = false) (hb : i.isByte = (n == 8)) (hg : ∀ p, PswAfter i p (op p).2) :
    Ends (Partly i) (Done i) (oneWriteOnly n op d) :=
  ends_bind (done_phase i) (locate_partly (by simp [ho])) fun ld s t hl =>
    thenFlags_ends (fun _ => writeLoc_partly hb (locate_writesLoc hp (by simp [hw]) s ld t hl) _) hg

theorem oneWriteNegative_ends {op : BitVec n → Word → BitVec n × Word} (ho : i.operands = [d]) (hw : i.written = [d])
    (hp : i.writesPair = false) (hb : i.isByte = (n == 8)) (hg : ∀ a p, PswAfter i p (op a p).2) :
    Ends (Partly i) (Done i) (oneWriteNegative n op d) :=
  ends_bind (done_phase i) (locate_partly (by simp [ho])) fun ld s t hl =>
    ends_bind (done_phase i) (readLoc_partly n ld) fun dv _ _ _ =>
      thenFlags_ends (fun _ => ends_doIf (partly_frame i) _
        (writeLoc_partly hb (locate_writesLoc hp (by simp [hw]) s ld t hl) _)) (hg dv)

theorem longShift_ends {sh : ShiftRule 32} (hw : i.written = [d]) (hp : i.writesPair = true) (hb : i.isByte = false)
    (hg : ∀ a p, PswAfter i p (aluLongShift sh a p).2) : Ends (Partly i) (Done i) (longShift sh d) :=
  ends_bind (done_phase i) (locateLong_partly d) fun p s t hl =>
    ends_bind (done_phase i) (readPair_partly p) fun v _ _ _ =>
      thenFlags_ends (fun _ => writePair_partly hb
        (fun _ => writesG_of_pair hp (by simp [hw]) (locateLong_gives d s p t hl)) _) (hg v)

/-- DJZ branches after its flags are set; that tail is no access and always ends. -/
theorem djzOp_ends (ho : i.operands = [f, d]) (hw : i.written = [f]) (hp : i.writesPair = false) (hb : i.isByte = false)
    (hg : ∀ a p, PswAfter i p (aluDjz a p).2) : Ends (Partly i) (Done i) (djzOp f d) :=
  ends_bind (done_phase i) (locate_partly (by simp [ho])) fun ls s t hl =>
    ends_bind (done_phase i) (readLoc_partly 16 ls) fun sv _ _ _ =>
      ends_bind (done_phase i) (readOperand_partly (by simp [ho])) fun target _ _ _ =>
        ends_get_bind fun u =>
          endsAt_bind (done_phase i) (writeLoc_partly hb (locate_writesLoc hp (by simp [hw]) s ls t hl) _ u)
            fun _ v _ huv => by
              have hdone : Done i v (v.setPsw (aluDjz sv u.psw).2) := { flags := huv.psw ▸ hg sv u.psw }
              unfold doIf
              split
              · exact endsAt_of_ok rfl (hdone.trans_partly (partly_setPc _ target))
              · exact endsAt_of_ok rfl hdone

theorem pushProgram_partly (hs : i.writesSp = true) (v : Word) : Ends (Partly i) (Partly i) (pushProgram v) :=
  ends_bind (partly_phase i) (ends_modify fun s => partly_setSp hs s _) fun _ _ _ _ =>
    ends_get_bind fun s => partly_of_bus_ends (pstackWrite_ends _ _ _) s

theorem jsbOp_partly (ho : i.operands = [f, d]) (hw : i.written = [f]) (hp : i.writesPair = false)
    (hb : i.isByte = false) (hs : i.writesSp = true) : Ends (Partly i) (Partly i) (jsbOp f d) :=
  ends_bind (partly_phase i) (locate_partly (by simp [ho])) fun ls s t hl =>
    ends_bind (partly_phase i) (readLoc_partly 16 ls) fun link _ _ _ =>
      ends_bind (partly_phase i) (readOperand_partly (by simp [ho])) fun target _ _ _ =>
        ends_get_bind fun u =>
          ends_bind (partly_phase i) (writeLoc_partly hb (locate_writesLoc hp (by simp [hw]) s ls t hl) _)
            (fun _ _ _ _ => ends_bind (partly_phase i) (pushProgram_partly hs link) fun _ _ _ _ =>
              ends_modify fun s => partly_setPc s target) u

theorem retOp_partly (ho : i.operands = [d]) (hw : i.written = [d]) (hp : i.writesPair = false)
    (hb : i.isByte = false) (hs : i.writesSp = true) : Ends (Partly i) (Partly i) (retOp d) :=
  ends_bind (partly_phase i) (locate_partly (by simp [ho])) fun ld s t hl =>
    ends_bind (partly_phase i) (readLoc_partly 16 ld) fun target _ _ _ =>
      ends_bind (partly_phase i) (ends_modify fun s => partly_setPc s target) fun _ _ _ _ =>
        ends_get_bind fun u =>
          ends_bind (partly_phase i) (partly_of_cycle_ends (pstackRead_cycleOnly _ _))
            (fun v _ _ _ => ends_bind (partly_phase i)
              (writeLoc_partly hb (locate_writesLoc hp (by simp [hw]) s ld t hl) v) fun _ _ _ _ =>
                ends_modify fun s => partly_setSp hs s _) u

theorem sfgmbOp_partly (ho : i.operands = [d]) (hw : i.written = [d]) (hp : i.writesPair = false)
    (hb : i.isByte = true) : Ends (Partly i) (Partly i) (sfgmbOp d) :=
  ends_bind (partly_phase i) (locate_partly (by simp [ho])) fun ld s t hl => by
    have hwrite := fun v => writeLoc_partly (n := 8) hb (locate_writesLoc hp (by simp [hw]) s ld t hl) v
    refine ends_get_bind fun u => ?_
    split
    · exact hwrite _ u
    · exact endsAt_bind (partly_phase i) (endsAt_set {}) fun _ v _ _ => hwrite _ v

theorem storeSpecial_partly {reg : State → Word} (ho : i.operands = [d]) (hw : i.written = [d])
    (hp : i.writesPair = false) (hb : i.isByte = false) : Ends (Partly i) (Partly i) (storeSpecial reg d) :=
  ends_bind (partly_phase i) (locate_partly (by simp [ho])) fun ld s t hl =>
    ends_get_bind fun u => writeLoc_partly hb (locate_writesLoc hp (by simp [hw]) s ld t hl) _ u

theorem loadSpecial_ends {upd : Word → State → State} (ho : i.operands = [d])
    (hu : ∀ v s, Done i s (upd v s)) : Ends (Partly i) (Done i) (loadSpecial upd d) :=
  ends_bind (done_phase i) (readOperand_partly (by simp [ho])) fun v _ _ _ => ends_modify (hu v)

theorem branchIf_partly (cond : Word → Bool) (off : BitVec 8) : Ends (Partly i) (Partly i) (branchIf cond off) :=
  ends_modify fun s => by
    split
    · exact partly_setPc s _
    · exact (partly_frame i).refl s

theorem ercOp_ends (hrow : i.flagRow = none) (k : BitVec 7) : Ends (Partly i) (Done i) (ercOp k) :=
  ends_modify fun s => by
    split
    · exact { pc_even := fun _ => mask_even _, flags := pswAfter_withCodes hrow s.psw _ }
    · exact { flags := pswAfter_refl (fun _ h => nomatch hrow.symm.trans h) s.psw }

theorem maskOp_ends (hrow : i.flagRow = none) (g : BitVec 7 → BitVec 7) : Ends (Partly i) (Done i) (maskOp g) :=
  ends_modify fun s => { flags := pswAfter_withCodes hrow s.psw _ }

theorem saveRegisters_partly (hs : i.writesSp = true) : Ends (Partly i) (Partly i) saveRegisters := by
  have hpush := fun (v : Word) => pushProgram_partly hs v
  have hthen := fun (v : Word) {x : M Unit} (hx : Ends (Partly i) (Partly i) x) =>
    ends_bind (partly_phase i) (hpush v) fun _ _ _ _ => hx
  exact ends_get_bind fun s => hthen s.rf (hthen s.re (hthen s.rd (hthen s.rc (hthen s.rb (hpush s.ra))))) s

theorem popToReg_partly (hs : i.writesSp = true) (hb : i.isByte = false) {r : GReg} (hr : i.writesG r = true) :
    Ends (Partly i) (Partly i) (popToReg r) :=
  ends_get_bind fun s => ends_bind (partly_phase i) (partly_of_cycle_ends (pstackRead_cycleOnly _ _)) (fun _ _ _ _ =>
    ends_modify fun s => (partly_frame i).trans
      (partly_setG hr s fun hbyte => absurd (hb.symm.trans hbyte) nofun) (partly_setSp hs _ _)) s

theorem restoreRegisters_partly (hs : i.writesSp = true) (hb : i.isByte = false) (hr : ∀ r, i.writesG r = true) :
    Ends (Partly i) (Partly i) restoreRegisters := by
  have hpop := fun (r : GReg) => popToReg_partly hs hb (hr r)
  have hthen := fun (r : GReg) {x : M Unit} (hx : Ends (Partly i) (Partly i) x) =>
    ends_bind (partly_phase i) (hpop r) fun _ _ _ _ => hx
  exact hthen .ra (hthen .rb (hthen .rc (hthen .rd (hthen .re (hpop .rf)))))

/-! ### The ASTROM -/

theorem partly_unit (ha : i.isAstrom = true) (s : State) (m : AstromRegs) (mf : AstromCodes) :
    Partly i s { s with m := m, mf := mf } where
  unit hn := absurd (ha.symm.trans hn) nofun

theorem putResult_partly (ha : i.isAstrom = true) (s : State) (w : Bool) (a : AcReg) (x : Long × AstromCodes) :
    Partly i s (s.putResult w a x) := by
  cases w
  · exact partly_unit ha s s.m x.2
  · cases a <;> exact partly_unit ha s _ x.2

theorem requireUp_partly : Ends (Partly i) (Partly i) requireUp :=
  ends_get_bind fun s => ends_raiseIf (partly_frame i) _ _ s

theorem longSource_partly (p : Operand) : Ends (Partly i) (Partly i) (longSource p) :=
  ends_bind (partly_phase i) (locateLong_partly p) fun q _ _ _ => readPair_partly q

theorem wordSource_partly (ho : i.operands = [o]) : Ends (Partly i) (Partly i) (wordSource o) :=
  readOperand_partly (by simp [ho])

theorem acSource_partly (b : AcReg) : Ends (Partly i) (Partly i) (acSource b) :=
  ends_get_bind fun s => ends_pure (partly_frame i) _ s

theorem acIntSource_partly (b : AcReg) : Ends (Partly i) (Partly i) (acIntSource b) :=
  ends_get_bind fun s => ends_pure (partly_frame i) _ s

theorem astromOp_partly {α : Type} {src : M α} {op : Config → Long → α → Long × AstromCodes} {w : Bool} {a : AcReg}
    (ha : i.isAstrom = true) (hsrc : Ends (Partly i) (Partly i) src) :
    Ends (Partly i) (Partly i) (astromOp src op w a) :=
  ends_bind (partly_phase i) hsrc fun _ _ _ _ =>
    ends_bind (partly_phase i) requireUp_partly fun _ _ _ _ =>
      ends_get_bind fun s => endsAt_bind (partly_phase i) (endsAt_set (putResult_partly ha s w a _)) fun _ t _ _ =>
        ends_raiseIf (partly_frame i) _ _ t

theorem storeFloat_partly {a : AcReg} (ha : i.isAstrom = true) (hw : i.written = [o]) (hp : i.writesPair = true)
    (hb : i.isByte = false) : Ends (Partly i) (Partly i) (storeFloat a o) :=
  ends_bind (partly_phase i) (locateLong_partly o) fun p s t hl =>
    ends_bind (partly_phase i) requireUp_partly fun _ _ _ _ => ends_get_bind fun u =>
      ends_bind (partly_phase i) (writePair_partly hb
        (fun _ => writesG_of_pair hp (by simp [hw]) (locateLong_gives o s p t hl)) _)
        (fun _ _ _ _ => ends_modify fun s => partly_unit ha s s.m _) u

theorem storeInt_partly {a : AcReg} (ha : i.isAstrom = true) (ho : i.operands = [o]) (hw : i.written = [o])
    (hp : i.writesPair = false) (hb : i.isByte = false) : Ends (Partly i) (Partly i) (storeInt a o) :=
  ends_bind (partly_phase i) (locate_partly (by simp [ho])) fun l s t hl =>
    ends_bind (partly_phase i) requireUp_partly fun _ _ _ _ => ends_get_bind fun u =>
      ends_bind (partly_phase i) (writeLoc_partly hb (locate_writesLoc hp (by simp [hw]) s l t hl) _)
        (fun _ _ _ _ => ends_modify fun s => partly_unit ha s s.m _) u

end

/-! ### What every instruction does, but entries, returns and resets -/

/-- `x` is what instruction `i` does, and it ends as such an instruction does. -/
structure Ordinary (i : Instr) (x : M Unit) : Prop where
  exec_eq : ∀ s, exec i s = runM x s
  ends : Ends (Partly i) (Done i) x

/-- An instruction that leaves the PSW. -/
theorem ordinary_of_partly {i : Instr} {x : M Unit} (hx : ∀ s, exec i s = runM x s)
    (hrow : i.flagRow = some ⟨.kept, .kept, .kept, .kept⟩) (h : Ends (Partly i) (Partly i) x) : Ordinary i x :=
  ⟨hx, ends_imp (fun _ _ => id) (fun _ _ => Partly.done hrow) h⟩

/-- Instruction `i` is an entry, a return, an exchange or a reset. -/
structure System (i : Instr) : Prop where
  writesSps : i.writesSps = true
  no_row : i.flagRow = none
  after : ∀ {s t}, exec i s = .next t → After i s t

theorem system_of_entryOnly {i : Instr} {x : M Unit} (hx : ∀ s, exec i s = runM x s) (hs : i.writesSps = true)
    (hrow : i.flagRow = none) (h : Keeps EntryOnly x) : System i where
  writesSps := hs
  no_row := hrow
  after {s t} ht := by
    rw [hx] at ht
    exact runM_next (after_frame i) (fun _ _ => EventOnly.after) (keeps_imp (fun _ _ => after_of_entryOnly) h) ht

theorem resetRegs_sound (s : State) : Sound s s.resetRegs where
  sp_even _ := by simp [State.resetRegs]
  sps_even _ := by simp [State.resetRegs]
  mk_bit15 _ := by simp [State.resetRegs]

theorem system_rst : System .rst where
  writesSps := rfl
  no_row := rfl
  after h := by
    refine runEvent_next (after_frame _) (fun _ _ => EventOnly.after) ?_ h
    refine resetSequence_keeps (after_frame _) (fun _ _ => EventOnly.after) (fun s => ?_) fun s p q => ?_
    · exact { resetRegs_sound s with sp := nofun, lp := fun _ h => absurd rfl h, imk := fun _ _ _ h => absurd rfl h }
    · exact { pc_even := fun _ => mask_even q }

/-- Every instruction is of one of the two kinds, by its shape. The last four arguments of `pswAfter_withCVZS` answer for
C, V, Z and S in the row of 10_state.md R44: `trivial` where the row says by result, `rfl` where it says kept, 0 or 1. -/
theorem ordinary_or_system (i : Instr) : (∃ x, Ordinary i x) ∨ System i := by
  cases i with
  | add f d | addb f d | dac f d | dacb f d | sub f d | subb f d | dsb f d | dsbb f d =>
    exact .inl ⟨_, fun _ => rfl, twoReadWrite_ends rfl rfl rfl rfl fun _ _ _ =>
      pswAfter_withCVZS rfl trivial trivial trivial trivial⟩
  | and f d | andb f d | or f d | orb f d | msk f d | mskb f d | xor f d | xorb f d | xnr f d | xnrb f d =>
    exact .inl ⟨_, fun _ => rfl, twoReadWrite_ends rfl rfl rfl rfl fun _ _ _ =>
      pswAfter_withCVZS rfl rfl rfl trivial trivial⟩
  | cmp f d | cmpb f d =>
    exact .inl ⟨_, fun _ => rfl, twoReadOnly_ends rfl fun _ _ _ =>
      pswAfter_withCVZS rfl trivial trivial trivial trivial⟩
  | coc f d | cocb f d | czc f d | czcb f d =>
    exact .inl ⟨_, fun _ => rfl, twoReadOnly_ends rfl fun _ _ _ => pswAfter_withCVZS rfl rfl rfl trivial trivial⟩
  | mov f d | movb f d =>
    exact .inl ⟨_, fun _ => rfl, moveOp_ends rfl rfl rfl rfl fun _ _ => pswAfter_withCVZS rfl rfl rfl trivial trivial⟩
  | exc f d | excb f d =>
    exact .inl ⟨_, fun _ => rfl, exchangeOp_ends rfl rfl rfl rfl fun _ _ =>
      pswAfter_withCVZS rfl rfl rfl trivial trivial⟩
  | djz f d =>
    exact .inl ⟨_, fun _ => rfl, djzOp_ends rfl rfl rfl rfl fun _ _ =>
      pswAfter_withCVZS rfl rfl trivial trivial trivial⟩
  | jsb f d => exact .inl ⟨_, ordinary_of_partly (fun _ => rfl) rfl (jsbOp_partly rfl rfl rfl rfl rfl)⟩
  | neg d | negb d | adc d | adcb d | sb d | sbb d =>
    exact .inl ⟨_, fun _ => rfl, oneReadWrite_ends rfl rfl rfl rfl fun _ _ =>
      pswAfter_withCVZS rfl trivial trivial trivial trivial⟩
  | inc d | incb d | dcr d | dcrb d | ict d | ictb d | dct d | dctb d =>
    exact .inl ⟨_, fun _ => rfl, oneReadWrite_ends rfl rfl rfl rfl fun _ _ =>
      pswAfter_withCVZS rfl rfl trivial trivial trivial⟩
  | cmt d | cmtb d | swb d | sld d | sldb d | sdc d | sdcb d | sad d | sadb d | rtd d | rtdb d | sle d | sleb d
  | rte d | rteb d =>
    exact .inl ⟨_, fun _ => rfl, oneReadWrite_ends rfl rfl rfl rfl fun _ _ =>
      pswAfter_withCVZS rfl rfl rfl trivial trivial⟩
  | rdc d | rdcb d | sec d | secb d | recw d | recb d =>
    exact .inl ⟨_, fun _ => rfl, oneReadWrite_ends rfl rfl rfl rfl fun _ _ =>
      pswAfter_withCVZS rfl trivial rfl trivial trivial⟩
  | stz d | stzb d | sto d | stob d =>
    exact .inl ⟨_, fun _ => rfl, oneWriteOnly_ends rfl rfl rfl rfl fun _ =>
      pswAfter_withCVZS rfl rfl rfl rfl rfl⟩
  | sxt d | sxtb d =>
    exact .inl ⟨_, fun _ => rfl, oneWriteOnly_ends rfl rfl rfl rfl fun _ =>
      pswAfter_withCVZS rfl rfl rfl trivial rfl⟩
  | abs d | absb d =>
    exact .inl ⟨_, fun _ => rfl, oneWriteNegative_ends rfl rfl rfl rfl fun _ _ =>
      pswAfter_withCVZS rfl rfl trivial trivial trivial⟩
  | cpz d | cpzb d =>
    exact .inl ⟨_, fun _ => rfl, oneReadOnly_ends rfl fun _ _ =>
      pswAfter_withCVZS rfl rfl rfl trivial trivial⟩
  | sldl d | sdcl d | sadl d | rtdl d | slel d | rtel d =>
    exact .inl ⟨_, fun _ => rfl, longShift_ends rfl rfl rfl fun _ _ =>
      pswAfter_withCVZS rfl rfl rfl trivial trivial⟩
  | rdcl d | secl d | recl d =>
    exact .inl ⟨_, fun _ => rfl, longShift_ends rfl rfl rfl fun _ _ =>
      pswAfter_withCVZS rfl trivial rfl trivial trivial⟩
  | ret d => exact .inl ⟨_, ordinary_of_partly (fun _ => rfl) rfl (retOp_partly rfl rfl rfl rfl rfl)⟩
  | slp d | smk d | ssps d =>
    exact .inl ⟨_, ordinary_of_partly (fun _ => rfl) rfl (storeSpecial_partly rfl rfl rfl rfl)⟩
  | sfgmb d => exact .inl ⟨_, ordinary_of_partly (fun _ => rfl) rfl (sfgmbOp_partly rfl rfl rfl rfl)⟩
  | jmp d => exact .inl ⟨_, fun _ => rfl, loadSpecial_ends rfl fun v s => (partly_setPc s v).done rfl⟩
  | clp d => exact .inl ⟨_, fun _ => rfl, loadSpecial_ends rfl fun v s =>
      { lp := fun h => absurd rfl (h d), flags := pswAfter_of_kept rfl _ }⟩
  | cmk d => exact .inl ⟨_, fun _ => rfl, loadSpecial_ends rfl fun v s =>
      { imk := fun h => absurd rfl (h d), mk_bit15 := fun _ => mask_bit15 _, flags := pswAfter_of_kept rfl _ }⟩
  | dmi d => exact .inl ⟨_, fun _ => rfl, loadSpecial_ends rfl fun v s =>
      { imk := fun _ h => absurd rfl (h d), mk_bit15 := fun _ => mask_bit15 _, flags := pswAfter_of_kept rfl _ }⟩
  | mki d => exact .inl ⟨_, fun _ => rfl, loadSpecial_ends rfl fun v s =>
      { imk := fun _ _ h => absurd rfl (h d), mk_bit15 := fun _ => mask_bit15 _, flags := pswAfter_of_kept rfl _ }⟩
  | csps d => exact .inl ⟨_, fun _ => rfl, loadSpecial_ends rfl fun v s =>
      { sps := nofun, sps_even := fun _ => mask_even _, flags := pswAfter_of_kept rfl _ }⟩
  | halt => exact .inl ⟨modify fun s => { s with run := .halt }, fun _ => rfl, ends_modify fun s =>
      { run := fun h => absurd rfl h, flags := pswAfter_of_kept rfl _ }⟩
  | wait => exact .inl ⟨modify fun s => { s with run := .wait }, fun _ => rfl, ends_modify fun s =>
      { run := fun _ h => absurd rfl h, flags := pswAfter_of_kept rfl _ }⟩
  | nop => exact .inl ⟨pure (), ordinary_of_partly (fun _ => rfl) rfl (ends_pure (partly_frame _) ())⟩
  | srg => exact .inl ⟨_, ordinary_of_partly (fun _ => rfl) rfl (saveRegisters_partly rfl)⟩
  | crg => exact .inl ⟨_, ordinary_of_partly (fun _ => rfl) rfl (restoreRegisters_partly rfl rfl fun _ => rfl)⟩
  | dr x | dco x | dcz x | dvo x | dvz x | dzo x | dzz x | dso x | dsz x | dtao x | dtaz x | dtbo x | dtbz x
  | dtco x | dtcz x | dge x | dlt x | dgt x | dle x | dhi x | dls x | dhs x | dlo x =>
    refine .inl ⟨_, ordinary_of_partly (fun _ => by unfold exec; rfl) rfl ?_⟩
    exact branchIf_partly _ x
  | erc k => exact .inl ⟨_, fun _ => rfl, ercOp_ends rfl k⟩
  | cfo k | cfz k | ccc k =>
    refine .inl ⟨_, fun _ => by unfold exec; rfl, ?_⟩
    exact maskOp_ends rfl _
  | cnm l => exact .inl ⟨_, fun _ => rfl, ends_modify fun s => { flags := pswAfter_cnm l s.psw }⟩
  | smpfp a p | supfp a p | mlpfp a p | dvpfp a p | ngpfp a p | cmpfp a p | pfip a p | crpf a p =>
    exact .inl ⟨_, ordinary_of_partly (fun _ => rfl) rfl (astromOp_partly rfl (longSource_partly p))⟩
  | smip a p | suip a p | mlip a p | dvip a p | ipfp a p | cri a p =>
    exact .inl ⟨_, ordinary_of_partly (fun _ => rfl) rfl (astromOp_partly rfl (wordSource_partly rfl))⟩
  | smpfm a b | supfm a b | mlpfm a b | dvpfm a b | ngpfm a b | abpf a b | cmpfm a b | pfim a b
  | cprgi a b =>
    exact .inl ⟨_, ordinary_of_partly (fun _ => rfl) rfl (astromOp_partly rfl (acSource_partly b))⟩
  | smim a b | suim a b | mlim a b | dvim a b | ngin a b | absi a b | ipfm a b =>
    exact .inl ⟨_, ordinary_of_partly (fun _ => rfl) rfl (astromOp_partly rfl (acIntSource_partly b))⟩
  | azpf a p => exact .inl ⟨_, ordinary_of_partly (fun _ => rfl) rfl (storeFloat_partly rfl rfl rfl rfl)⟩
  | azi a p => exact .inl ⟨_, ordinary_of_partly (fun _ => rfl) rfl (storeInt_partly rfl rfl rfl rfl rfl)⟩
  | rst => exact .inr system_rst
  | exs => exact .inr (system_of_entryOnly (fun _ => rfl) rfl rfl exchangeEntry_entryOnly)
  | rtt | rti => exact .inr (system_of_entryOnly (fun _ => rfl) rfl rfl returnEntry_entryOnly)
  | btp | trapn n => exact .inr ⟨rfl, rfl, fun h => (enterEvent_eventOnly h).after⟩

/-! ### The frames -/

/-- However an instruction ends, also in a trap. -/
theorem exec_after {i : Instr} {s t : State} (h : exec i s = .next t) : After i s t := by
  obtain ⟨x, hx⟩ | hsys := ordinary_or_system i
  · rw [hx.exec_eq] at h
    exact runM_next (after_frame i) (fun _ _ => EventOnly.after)
      (keeps_of_ends (fun _ _ h => h.toAfter) (fun _ _ h => h.toAfter) hx.ends) h
  · exact hsys.after h

/-- An ordinary instruction ends, or a trap abandons it midway. -/
theorem Ordinary.done_or_trap {i : Instr} {x : M Unit} (hx : Ordinary i x) {s t : State} (h : exec i s = .next t) :
    Done i s t ∨ ∃ e u, exec i s = raiseInInstr e u ∧ Partly i s u := by
  have heq := hx.exec_eq s
  obtain ⟨u, hxu, hu⟩ | ⟨e, u, hxu, hu⟩ | ⟨u, hxu, _⟩ | ⟨_, _, _, hu⟩ := runM_cases x s
  · cases (heq.trans hu).symm.trans h; exact .inl ((hx.ends s).ok hxu)
  · exact .inr ⟨e, u, heq.trans hu, (hx.ends s).error hxu⟩
  · exact absurd hxu (hx.ends s).no_halt
  · cases (heq.trans hu).symm.trans h

/-- Where SPS is as it was, no exception was taken. -/
theorem Ordinary.done_of_sps_eq {i : Instr} {x : M Unit} (hx : Ordinary i x) {s t : State} (h : exec i s = .next t)
    (hsps : t.sps = s.sps) : Done i s t := by
  obtain hdone | ⟨e, u, heq, hu⟩ := hx.done_or_trap h
  · exact hdone
  · exact absurd (hsps.trans hu.sps.symm) (raiseInInstr_sps_ne (heq.symm.trans h))

/-- Settles O52: what every ending of an instruction leaves. -/
theorem generalRegisterFrame : Obligations.GeneralRegisterFrame := fun _ _ _ r h =>
  ⟨(exec_after h).reg r, fun hb => (exec_after h).high hb r⟩

/-- Settles O53: SPS as it was means that the instruction ended and no trap abandoned it. -/
theorem specialRegisterFrame : Obligations.SpecialRegisterFrame := by
  intro i s t h
  have hafter := exec_after h
  have hordinary : i.writesSps = false → ∃ x, Ordinary i x := fun hw =>
    (ordinary_or_system i).resolve_right fun hsys => absurd (hsys.writesSps.symm.trans hw) nofun
  refine ⟨hafter.sp, hafter.lp, hafter.imk, fun hw => ?_, fun hw hsps => ?_⟩
  · obtain ⟨x, hx⟩ := hordinary hw
    exact (hx.done_or_trap h).imp (fun hdone => hdone.sps hw) fun ⟨e, u, heq, hu⟩ => ⟨e, u, heq, hu.sps⟩
  · obtain ⟨x, hx⟩ := hordinary hw
    have hdone := hx.done_of_sps_eq h hsps
    exact ⟨hdone.flags.base _, hdone.flags.b _, hdone.flags.level, hdone.unit, hdone.run, hdone.bpArmed, hdone.cfg,
      hdone.inp, hdone.script, hdone.stale, hdone.noBase⟩

/-- Settles O54: an instruction with a row is no entry, return or reset, and with SPS as it was it ended. -/
theorem flagWriters : Obligations.FlagWriters := by
  intro i row s t hrow h hsps
  obtain ⟨x, hx⟩ := (ordinary_or_system i).resolve_right fun hsys => absurd (hsys.no_row.symm.trans hrow) nofun
  exact (hx.done_of_sps_eq h hsps).flags.row row hrow

/-! ### Boundaries -/

theorem interruptLoop_eventOnly {k : Nat} {s t : State} (h : interruptLoop k s = .next t) : EventOnly s t := by
  induction k generalizing s with
  | zero => cases h
  | succ k ih =>
    unfold interruptLoop at h
    split at h
    · cases h; exact eventOnly_frame.refl _
    · split at h
      · cases h; exact eventOnly_frame.refl _
      · obtain ⟨u, hentry, hrest⟩ := andThen_next.1 h
        have hu : EventOnly s u := eventOnly_frame.trans { same := rfl } (enterEvent_eventOnly hentry)
        split at hrest
        · exact eventOnly_frame.trans hu (ih hrest)
        · cases hrest; exact hu

theorem boundary2_eventOnly {s t : State} (h : boundary2 s = .next t) : EventOnly s t := by
  unfold boundary2 at h
  split at h
  · obtain ⟨u, hentry, hrest⟩ := andThen_next.1 h
    have hu : EventOnly s u := eventOnly_frame.trans { same := rfl } (enterEvent_eventOnly hentry)
    split at hrest
    · exact eventOnly_frame.trans hu (interruptLoop_eventOnly hrest)
    · cases hrest; exact hu
  · exact interruptLoop_eventOnly h

theorem applyPare_eventOnly (s : State) : EventOnly s (applyPare s) := by
  unfold applyPare
  split <;> exact { same := rfl }

theorem boundary_eventOnly {s t : State} (h : boundary s = .next t) : EventOnly s t := by
  unfold boundary at h
  dsimp only at h
  split at h
  · cases h; exact applyPare_eventOnly s
  · exact eventOnly_frame.trans (applyPare_eventOnly s) (boundary2_eventOnly h)

/-- What ends in a boundary. -/
theorem sound_of_boundary {r : Result} {s t : State} (hr : ∀ u, r = .next u → Sound s u)
    (h : andThen r boundary = .next t) : Sound s t := by
  obtain ⟨u, hu, hb⟩ := andThen_next.1 h
  exact (hr u hu).trans (boundary_eventOnly hb).sound

theorem eventOnly_setPc (s : State) (v : Word) : EventOnly s (s.setPc v) where
  same := rfl
  pc_even _ := mask_even v

theorem fetch16_eventOnly : Keeps EventOnly fetch16 :=
  keeps_get_bind fun s => keeps_bind eventOnly_frame
    (keeps_of_ends (fun _ _ => CycleOnly.eventOnly) (fun _ _ => CycleOnly.eventOnly) (streamRead_cycleOnly _ _))
    (fun _ => keeps_bind eventOnly_frame (keeps_modify fun s => eventOnly_setPc s _) fun _ =>
      keeps_pure eventOnly_frame _) s

/-! ### The invariant, step by step -/

/-- From a state with the invariant to one with it, under the same configuration. -/
def KeepsInv (s t : State) : Prop := (s.Inv → t.Inv) ∧ t.cfg = s.cfg

theorem keepsInv_frame : Frame KeepsInv :=
  ⟨fun _ => ⟨id, rfl⟩, fun h k => ⟨k.1 ∘ h.1, k.2.trans h.2⟩⟩

theorem Sound.keepsInv {s t : State} (h : Sound s t) (hbase : s.noBase = false → t.noBase = false)
    (hstored : s.stored = [] → t.stored = []) : KeepsInv s t :=
  ⟨fun hinv => ⟨h.sp_even hinv.sp_even, h.pc_even hinv.pc_even, h.sps_even hinv.sps_even, h.mk_bit15 hinv.mk_bit15,
    h.mem_wf hinv.mem_wf, hbase hinv.no_base, hstored hinv.no_stored⟩, h.cfg⟩

theorem EventOnly.keepsInv {s t : State} (h : EventOnly s t) : KeepsInv s t :=
  h.sound.keepsInv (by rw [h.same]; exact id) (by rw [h.same]; exact id)

/-- What runs an instruction leaves none in progress. -/
structure Ended (s t : State) : Prop extends Sound s t where
  no_base : t.noBase = false
  no_stored : t.stored = []

theorem Ended.keepsInv {s t : State} (h : Ended s t) : KeepsInv s t :=
  h.toSound.keepsInv (fun _ => h.no_base) (fun _ => h.no_stored)

theorem ended_endInstr {s f t : State} {ext : Nat} (h : Sound s t) : Ended s (endInstr f ext t) where
  toSound := h.trans {}
  no_base := rfl
  no_stored := rfl

theorem runWord_ended {w : Word} {s t : State} (h : runWord w s = .next t) : Ended s t := by
  unfold runWord at h
  split at h
  · obtain ⟨u, hu, hend⟩ := andThen_next.1 h
    cases hend
    have hstart : Sound s { s with noBase := Config.isExempt s.cfg w } := {}
    exact ended_endInstr (sound_of_boundary (fun _ hexec => hstart.trans (exec_after hexec).toSound) hu)
  · obtain ⟨u, hu, hend⟩ := andThen_next.1 h
    cases hend
    exact ended_endInstr (sound_of_boundary (fun _ htrap => (raiseInInstr_eventOnly htrap).sound) hu)

theorem ended_beginInstr (s : State) : Ended s (beginInstr s) where
  no_base := rfl
  no_stored := rfl

theorem Ended.trans_event {s t u : State} (h : Ended s t) (k : EventOnly t u) : Ended s u where
  toSound := h.toSound.trans k.sound
  no_base := by rw [k.same]; exact h.no_base
  no_stored := by rw [k.same]; exact h.no_stored

theorem runStep_ended {s t : State} (h : runStep s = .next t) : Ended s t := by
  have hfetch := fetch16_eventOnly (beginInstr s)
  have hbegin := ended_beginInstr s
  unfold runStep at h
  split at h
  · next hf =>
    have hword := runWord_ended h
    exact { hword with toSound := (hbegin.trans_event (keepsAt_ok hfetch hf)).toSound.trans hword.toSound }
  · next hf =>
    obtain ⟨v, hv, hend⟩ := andThen_next.1 h
    obtain ⟨u, htrap, hb⟩ := andThen_next.1 hv
    cases hend
    have hfetched := hbegin.trans_event (keepsAt_error hfetch hf)
    have hended := (hfetched.trans_event (raiseInInstr_eventOnly htrap)).trans_event (boundary_eventOnly hb)
    exact { hended with toSound := hended.toSound.trans {} }
  · next hf =>
    cases h
    exact (hbegin.trans_event (keepsAt_error hfetch hf)).trans_event { same := rfl }
  · cases h

theorem applyEdit_keepsInv (s : State) (e : PanelEdit) : KeepsInv s (applyEdit s e) := by
  cases e with
  | mem a v => exact Sound.keepsInv { mem_wf := wf_writeCells _ _ } id id
  | reg r v =>
    cases r with
    | sp => exact Sound.keepsInv { sp_even := fun _ => mask_even v } id id
    | pc => exact Sound.keepsInv { pc_even := fun _ => mask_even v } id id
    | sps => exact Sound.keepsInv { sps_even := fun _ => mask_even v } id id
    | imk => exact Sound.keepsInv { mk_bit15 := fun _ => mask_bit15 v } id id
    | ra | rb | rc | rd | re | rf | lp | psw => exact Sound.keepsInv {} id id

theorem applyEdits_keepsInv (s : State) (edits : List PanelEdit) : KeepsInv s (edits.foldl applyEdit s) := by
  induction edits generalizing s with
  | nil => exact keepsInv_frame.refl s
  | cons e edits ih => exact keepsInv_frame.trans (applyEdit_keepsInv s e) (ih _)

theorem haltStep_keepsInv {s t : State} (h : haltStep s = .next t) : KeepsInv s t := by
  have hedits := applyEdits_keepsInv s s.inp.edits
  have hrun : ∀ (u : State) r, KeepsInv u { u with run := r } := fun _ _ => Sound.keepsInv {} id id
  unfold haltStep at h
  dsimp only at h
  split at h
  · exact keepsInv_frame.trans hedits (keepsInv_frame.trans (hrun _ .run) (boundary2_eventOnly h).keepsInv)
  · split at h
    · obtain ⟨u, hu, hend⟩ := andThen_next.1 h
      cases hend
      have hstep := keepsInv_frame.trans (hrun _ .run) (runStep_ended hu).keepsInv
      exact keepsInv_frame.trans hedits (keepsInv_frame.trans hstep (hrun u .halt))
    · cases h; exact hedits

theorem waitStep_keepsInv {s t : State} (h : waitStep s = .next t) : KeepsInv s t := by
  unfold waitStep at h
  split at h
  · cases h; exact Sound.keepsInv {} id id
  · exact (interruptLoop_eventOnly h).keepsInv

theorem resetSequence_keepsInv : Keeps KeepsInv resetSequence :=
  resetSequence_keeps keepsInv_frame (fun _ _ => EventOnly.keepsInv)
    (fun s => (resetRegs_sound s).keepsInv id id)
    fun _ _ q => Sound.keepsInv { pc_even := fun _ => mask_even q } id id

theorem stepNow_keepsInv {s t : State} (h : stepNow s = .next t) : KeepsInv s t := by
  unfold stepNow at h
  split at h
  · exact runEvent_next keepsInv_frame (fun _ _ => EventOnly.keepsInv) resetSequence_keepsInv h
  · split at h
    · exact haltStep_keepsInv h
    · exact waitStep_keepsInv h
    · exact (runStep_ended h).keepsInv

theorem advanceInputs_keepsInv (s : State) : KeepsInv s (advanceInputs s) := by
  unfold advanceInputs
  split
  · exact Sound.keepsInv {} id id
  · split <;> exact Sound.keepsInv {} id id

/-- Settles O57: each of the four ways to make a step keeps the invariant, and so does the change of the inputs. -/
theorem stepKeepsInvariant : Obligations.StepKeepsInvariant := by
  intro s t h
  obtain ⟨u, hu, hend⟩ := andThen_next.1 h
  cases hend
  exact keepsInv_frame.trans (stepNow_keepsInv hu) (advanceInputs_keepsInv u)

end Sys2Proof.Machine
end

