-- ==== Sys2Proof/Proofs/Memory.lean ====
section
/-! SUPPORT. Memory, relocation and the accesses of 20_memory.md: what a write leaves of every byte, what each kind of
access answers, which bytes an instruction spares, and the obligations about them. -/

namespace Sys2Proof.Machine

/-! ### Bytes (R70) -/

/-- A stored byte reads back; storing 0 takes the cell away, and the cells after it all lie above. -/
theorem readByte_writeByte_same (a : Nat) (x : Byte) :
    ∀ {m : Memory} {lo : Nat}, Memory.wfFrom lo m = true → (m.writeByte a x).readByte a = x
  | [], _, _ => by
    by_cases hx : x = 0#8 <;> simp [Memory.writeByte, Memory.readByte, hx]
  | (b, v) :: rest, lo, hm => by
    have hm' := hm
    simp only [Memory.wfFrom, Bool.and_eq_true, decide_eq_true_eq] at hm
    obtain ⟨⟨⟨hlo, hb⟩, hv⟩, hrest⟩ := hm
    unfold Memory.writeByte
    by_cases hab : a < b
    · by_cases hx : x = 0#8
      · have hzero : Memory.readByte rest a = 0#8 := readByte_of_lt hrest (by omega)
        simp [hab, hx, Memory.readByte, hzero, show b ≠ a by omega]
      · simp [hab, hx, Memory.readByte]
    · by_cases hba : b = a
      · by_cases hx : x = 0#8
        · have hzero : Memory.readByte rest a = 0#8 := readByte_of_lt hrest (by omega)
          simp [hba, hx, hzero]
        · simp [hba, hx, Memory.readByte]
      · simp [hab, hba, Memory.readByte, readByte_writeByte_same a x hrest]

/-- The other bytes stay, whether or not the memory is canonical. -/
theorem readByte_writeByte_other {a c : Nat} (x : Byte) (h : c ≠ a) :
    ∀ m : Memory, (m.writeByte a x).readByte c = m.readByte c
  | [] => by
    by_cases hx : x = 0#8 <;> simp [Memory.writeByte, Memory.readByte, hx, h.symm]
  | (b, v) :: rest => by
    unfold Memory.writeByte
    by_cases hab : a < b
    · by_cases hx : x = 0#8 <;> simp [hab, hx, Memory.readByte, h.symm]
    · by_cases hba : b = a
      · by_cases hx : x = 0#8 <;> simp [hba, hx, Memory.readByte, h.symm]
      · simp [hab, hba, Memory.readByte, readByte_writeByte_other x h rest]

/-- The addresses of the bytes of an access. -/
def accessBytes (wide : Bool) (pa : Word) : List Nat := if wide then [pa.toNat, (pa + 1).toNat] else [pa.toNat]

theorem not_mem_accessBytes_byte {pa : Word} {b : Nat} : b ∉ accessBytes false pa ↔ b ≠ pa.toNat :=
  List.mem_singleton.not

theorem not_mem_accessBytes_word {pa : Word} {b : Nat} :
    b ∉ accessBytes true pa ↔ b ≠ pa.toNat ∧ b ≠ (pa + 1).toNat := List.mem_pair.not.trans not_or

/-- A write leaves every byte that is not its own. -/
theorem readByte_write_other {wide : Bool} {pa : Word} {b : Nat} (h : b ∉ accessBytes wide pa) (m : Memory)
    (v : Word) : (m.write wide pa v).readByte b = m.readByte b := by
  cases wide with
  | false => exact readByte_writeByte_other _ (not_mem_accessBytes_byte.1 h) m
  | true =>
    obtain ⟨hlow, hhigh⟩ : b ≠ pa.toNat ∧ b ≠ (pa + 1).toNat := not_mem_accessBytes_word.1 h
    exact (readByte_writeByte_other _ hhigh _).trans (readByte_writeByte_other _ hlow m)

/-! ### Words (R71, R72) -/

/-- The high byte of a word at an even address never wraps round. -/
theorem toNat_succ_of_even {a : Word} (h : a.getLsbD 0 = false) : (a + 1).toNat = a.toNat + 1 := by
  have heven : a.toNat % 2 = 0 := by simpa [BitVec.getLsbD] using h
  bv_omega

theorem read_word (m : Memory) (a : Word) : m.read true a = m.readByte (a + 1).toNat ++ m.readByte a.toNat := rfl

theorem read_byte (m : Memory) (a : Word) : m.read false a = (m.readByte a.toNat).setWidth 16 := rfl

theorem readByte_write_low {m : Memory} (hm : m.wf = true) (a v : Word) :
    (m.write true a v).readByte a.toNat = v.extractLsb' 0 8 := by
  have hne : a.toNat ≠ (a + 1).toNat := by bv_omega
  exact (readByte_writeByte_other _ hne _).trans (readByte_writeByte_same _ _ hm)

theorem readByte_write_high {m : Memory} (hm : m.wf = true) (a v : Word) :
    (m.write true a v).readByte (a + 1).toNat = v.extractLsb' 8 8 :=
  readByte_writeByte_same _ _ (wf_writeByte a.isLt hm)

/-- Settles O6, byte by byte. -/
theorem memoryBytesAndWords : Obligations.MemoryBytesAndWords := by
  refine ⟨fun m a b x hm _ => ?_, fun m a v hm heven => ?_⟩
  · split
    · next hba => rw [hba]; exact readByte_writeByte_same a x hm
    · next hba => exact readByte_writeByte_other x hba m
  · have hsucc := toNat_succ_of_even heven
    have hread : m.read true a = m.readByte (a.toNat + 1) ++ m.readByte a.toNat := by rw [read_word, hsucc]
    refine ⟨hread, ?_, ?_, readByte_write_low hm a v, ?_, fun b hlow hhigh => ?_⟩
    · rw [hread, BitVec.extractLsb'_append_eq_right, read_byte]
    · rw [hread, BitVec.extractLsb'_append_eq_left, read_byte, hsucc]
    · rw [← hsucc]; exact readByte_write_high hm a v
    · exact readByte_write_other (not_mem_accessBytes_word.2 ⟨hlow, hsucc ▸ hhigh⟩) m v

/-! ### The canonical form (log 26) -/

/-- The byte of the first cell is read at its address; after it come the cells of the rest. -/
theorem readByte_cons_same (b : Nat) (v : Byte) (rest : Memory) : Memory.readByte ((b, v) :: rest) b = v := by
  simp [Memory.readByte]

theorem readByte_cons_other {a b : Nat} (h : b ≠ a) (v : Byte) (rest : Memory) :
    Memory.readByte ((b, v) :: rest) a = Memory.readByte rest a := by
  simp [Memory.readByte, h]

/-- The lower of two first addresses is read as a byte that is not zero in one memory and as zero in the other, so the
first cells are the same; and so are the rests, which both read as zero up to that address. -/
theorem eq_of_readByte_eq : ∀ {m k : Memory} {lo : Nat}, Memory.wfFrom lo m = true → Memory.wfFrom lo k = true →
    (∀ a, a < 65536 → m.readByte a = k.readByte a) → m = k
  | [], [], _, _, _, _ => rfl
  | [], (c, w) :: k, _, _, hk, h => by
    simp only [Memory.wfFrom, Bool.and_eq_true, decide_eq_true_eq] at hk
    obtain ⟨⟨⟨_, hc⟩, hw⟩, _⟩ := hk
    exact absurd ((readByte_cons_same c w k).symm.trans (h c hc).symm) hw
  | (b, v) :: m, [], _, hm, _, h => by
    simp only [Memory.wfFrom, Bool.and_eq_true, decide_eq_true_eq] at hm
    obtain ⟨⟨⟨_, hb⟩, hv⟩, _⟩ := hm
    exact absurd ((readByte_cons_same b v m).symm.trans (h b hb)) hv
  | (b, v) :: m, (c, w) :: k, lo, hm, hk, h => by
    simp only [Memory.wfFrom, Bool.and_eq_true, decide_eq_true_eq] at hm hk
    obtain ⟨⟨⟨_, hb⟩, hv⟩, hm⟩ := hm
    obtain ⟨⟨⟨_, hc⟩, hw⟩, hk⟩ := hk
    have hbc : b = c := by
      rcases Nat.lt_trichotomy b c with hlt | heq | hgt
      · have hzero : Memory.readByte ((c, w) :: k) b = 0#8 := by
          rw [readByte_cons_other hlt.ne', readByte_of_lt hk (by omega)]
        exact absurd ((readByte_cons_same b v m).symm.trans ((h b hb).trans hzero)) hv
      · exact heq
      · have hzero : Memory.readByte ((b, v) :: m) c = 0#8 := by
          rw [readByte_cons_other hgt.ne', readByte_of_lt hm (by omega)]
        exact absurd ((readByte_cons_same c w k).symm.trans ((h c hc).symm.trans hzero)) hw
    subst hbc
    have hvw : v = w := by simpa [readByte_cons_same] using h b hb
    have hrest : ∀ a, a < 65536 → Memory.readByte m a = Memory.readByte k a := by
      intro a ha
      by_cases hba : a ≤ b
      · rw [readByte_of_lt hm (by omega), readByte_of_lt hk (by omega)]
      · have hne : b ≠ a := by omega
        simpa [readByte_cons_other hne] using h a ha
    rw [hvw, eq_of_readByte_eq hm hk hrest]

/-- Settles O7: the canonical form from address 0 on. -/
theorem canonicalMemoriesAreEqual : Obligations.CanonicalMemoriesAreEqual := fun _ _ => eq_of_readByte_eq

/-! ### Relocation (R78) -/

theorem relocate_of_ge {base : BitVec 4} {a : Word} (h : 0xF800 ≤ a.toNat) : relocate base a = a := if_pos h

theorem relocate_of_lt {base : BitVec 4} {a : Word} (h : a.toNat < 0xF800) :
    relocate base a = (a.extractLsb' 12 4 + base) ++ a.extractLsb' 0 12 := if_neg (Nat.not_le.2 h)

/-- A word is its top four bits and the twelve below. -/
theorem extractLsb'_append_nibble (a : Word) : a.extractLsb' 12 4 ++ a.extractLsb' 0 12 = a :=
  (BitVec.extractLsb'_append_extractLsb'_eq_extractLsb' rfl).trans BitVec.extractLsb'_eq_self

theorem relocate_zero (a : Word) : relocate 0 a = a := by
  by_cases h : 0xF800 ≤ a.toNat
  · exact relocate_of_ge h
  · have hsum : a.extractLsb' 12 4 + (0 : BitVec 4) = a.extractLsb' 12 4 := BitVec.add_zero _
    rw [relocate_of_lt (Nat.not_le.1 h), hsum, extractLsb'_append_nibble]

/-- The top four bits are added modulo 16, the twelve below stay. -/
theorem relocate_toNat_of_lt {base : BitVec 4} {a : Word} (h : a.toNat < 0xF800) :
    (relocate base a).toNat = ((a.toNat / 4096 + base.toNat) % 16) * 4096 + a.toNat % 4096 := by
  have ha := a.isLt
  have hlow : a.toNat % 4096 < 2 ^ 12 := Nat.mod_lt _ (by decide)
  rw [relocate_of_lt h, BitVec.toNat_append, BitVec.toNat_add, BitVec.extractLsb'_toNat, BitVec.extractLsb'_toNat,
    Nat.shiftRight_eq_div_pow, Nat.shiftRight_zero, ← Nat.shiftLeft_add_eq_or_of_lt hlow, Nat.shiftLeft_eq]
  omega

theorem relocate_bit0 (base : BitVec 4) (a : Word) : (relocate base a).getLsbD 0 = a.getLsbD 0 := by
  by_cases h : 0xF800 ≤ a.toNat
  · rw [relocate_of_ge h]
  · rw [relocate_of_lt (Nat.not_le.1 h)]
    show BitVec.getLsbD (w := 4 + 12) _ 0 = _
    rw [BitVec.getLsbD_append, BitVec.getLsbD_extractLsb']
    rfl

/-- Settles O8; the numbers of R79 are computed. -/
theorem relocationAddsBase : Obligations.RelocationAddsBase :=
  ⟨fun base a => ⟨relocate_of_ge, relocate_zero a, relocate_toNat_of_lt, relocate_bit0 base a⟩,
    by decide, by decide, by decide⟩

/-! ### Bus cycles before which no ADMP edit falls (R82 to R85) -/

section
variable {s : State} {own wide : Bool} {pa v : Word}

theorem answers_eq_some_iff (c : Config) (write wide : Bool) (pa : Word) (k : SlaveKind) :
    Config.answers c write wide pa = some k ↔ Config.slaveAt c pa.toNat = some k ∧
      (⟨pa, wide⟩ : BusAccess) ∉ (if write then c.silentWrites else c.silentReads) := by
  unfold Config.answers
  by_cases h : (⟨pa, wide⟩ : BusAccess) ∈ (if write then c.silentWrites else c.silentReads) <;> simp [h]

/-- With no edit to come, a bus cycle runs on the state it found. -/
theorem admpTick_get_bind {α : Type} {f : State → M α} (ha : s.admp = []) :
    (admpTick >>= fun _ => get >>= f) s = f s s := by
  rw [bind_apply, admpTick_none ha]
  rfl

/-- The parity check of a read, and what follows it. -/
theorem parityCheck_apply {α : Type} (c : Config) (wide : Bool) (pa : Word) (x : M α) (s : State) :
    (raiseIf (Config.parityError c wide pa) .parity >>= fun _ => x) s =
      if (⟨pa, wide⟩ : BusAccess) ∈ c.badParity then .error (.trap .parity) s else x s := by
  by_cases h : (⟨pa, wide⟩ : BusAccess) ∈ c.badParity <;> simp [raiseIf_apply, Config.parityError, h]

/-- A read of plain memory gives its contents, or the parity trap. -/
theorem busRead_of_plain (ha : s.admp = [])
    (hm : Config.answers s.cfg false wide pa = some .ram ∨ Config.answers s.cfg false wide pa = some .rom) :
    busRead wide pa s = if (⟨pa, wide⟩ : BusAccess) ∈ s.cfg.badParity then .error (.trap .parity) s
      else .ok (s.mem.read wide pa) s := by
  unfold busRead
  rw [admpTick_get_bind ha]
  rcases hm with h | h <;> rw [h] <;> exact parityCheck_apply _ _ _ _ _

/-- What a device register delivers in this state, a byte zero-extended (log 27). -/
def State.deviceWord (s : State) (wide : Bool) (pa : Word) : Word :=
  if wide then Config.devRead s.freeCount pa 16 else Config.devRead s.freeCount pa 8 &&& 0x00FF

theorem toNat_and_byte (x : Word) : (x &&& 0x00FF).toNat < 256 := by
  rw [BitVec.toNat_and]
  exact Nat.lt_of_le_of_lt Nat.and_le_right (by decide)

theorem deviceWord_byte (s : State) (pa : Word) : (s.deviceWord false pa).toNat < 256 := toNat_and_byte _

/-- A read of a device is heard by it also where parity is bad. -/
theorem busRead_of_device (ha : s.admp = []) (hm : Config.answers s.cfg false wide pa = some .device) :
    busRead wide pa s =
      if (⟨pa, wide⟩ : BusAccess) ∈ s.cfg.badParity then
        .error (.trap .parity) { s with events := .devRead pa wide :: s.events, freeCount := s.freeCount + 1 }
      else .ok (s.deviceWord wide pa)
        { s with events := .devRead pa wide :: s.events, freeCount := s.freeCount + 1 } := by
  unfold busRead
  rw [admpTick_get_bind ha, hm]
  exact parityCheck_apply s.cfg wide pa (pure (s.deviceWord wide pa)) _

/-- A write cycle, by what answers it. -/
theorem busWrite_apply (ha : s.admp = []) : busWrite own wide pa v s =
    match Config.answers s.cfg true wide pa with
    | none => .error (.trap .busTimeout) s
    | some .device =>
      .ok () { s with events := .devWrite pa wide (if wide then v else v &&& 0x00FF) :: s.events }
    | some .rom => .error (.refuse .readOnlyWrite) s
    | some .ram => .ok () (s.store own wide pa v) := by
  unfold busWrite
  rw [admpTick_get_bind ha]
  cases Config.answers s.cfg true wide pa with
  | none => rfl
  | some k => cases k <;> rfl

end

/-! ### The checks before a bus cycle (R74, R80, R81) -/

section
variable {s : State} {own wide : Bool} {a v : Word}

/-- A check that fails raises its trap before anything is done. -/
theorem raiseIf_bind_true {α : Type} {b : Bool} {e : Trap} {x : Unit → M α} (h : b = true) :
    (raiseIf b e >>= x) s = .error (.trap e) s := by
  rw [h]; rfl

/-- A check that passes does nothing. -/
theorem raiseIf_bind_false {α : Type} {b : Bool} {e : Trap} {x : Unit → M α} (h : b = false) :
    (raiseIf b e >>= x) s = x () s := by
  rw [h]; rfl

theorem haltIf_bind_false {α : Type} {b : Bool} {x : Unit → M α} (h : b = false) : (haltIf b >>= x) s = x () s := by
  rw [h]; rfl

theorem memRead_odd (h : (wide && a.getLsbD 0) = true) : memRead wide a s = .error (.trap .oddAddress) s :=
  raiseIf_bind_true h

theorem memRead_even (h : (wide && a.getLsbD 0) = false) : memRead wide a s = busRead wide (s.reloc a) s :=
  raiseIf_bind_false h

theorem memWrite_odd (h : (wide && a.getLsbD 0) = true) : memWrite wide a v s = .error (.trap .oddAddress) s :=
  raiseIf_bind_true h

theorem memWrite_even (h : (wide && a.getLsbD 0) = false) :
    memWrite wide a v s = busWrite true wide (s.reloc a) v s :=
  raiseIf_bind_false h

theorem streamRead_even (h : (wide && a.getLsbD 0) = false) :
    streamRead wide a s = (busRead wide (s.relocStream a) >>= prefetched wide (s.relocStream a)) s :=
  raiseIf_bind_false h

theorem streamWrite_odd (h : (wide && a.getLsbD 0) = true) :
    streamWrite wide a v s = .error (.trap .oddAddress) s :=
  raiseIf_bind_true h

theorem streamWrite_even (h : (wide && a.getLsbD 0) = false) :
    streamWrite wide a v s = busWrite true wide (s.relocStream a) v s :=
  raiseIf_bind_false h

theorem outsideStack_eq_false (htop : a.toNat ≤ 0xF7FF) (hlp : s.lp.toNat ≤ a.toNat) : s.outsideStack a = false := by
  simp [State.outsideStack, htop, hlp]

theorem pstackRead_inside (h : s.outsideStack a = false) : pstackRead wide a s = busRead wide a s :=
  raiseIf_bind_false h

theorem pstackWrite_inside (h : s.outsideStack a = false) : pstackWrite wide a v s = busWrite true wide a v s :=
  raiseIf_bind_false h

theorem sstackRead_inside (h : s.outsideStack a = false) (heven : a.getLsbD 0 = false) :
    sstackRead a s = haltOnTrap (busRead true a) s :=
  haltIf_bind_false (by rw [h, heven]; rfl)

theorem sstackWrite_inside (h : s.outsideStack a = false) (heven : a.getLsbD 0 = false) :
    sstackWrite own a v s = haltOnTrap (busWrite own true a v) s :=
  haltIf_bind_false (by rw [h, heven]; rfl)

theorem haltOnTrap_ok {α : Type} {x : M α} {s t : State} {b : α} (h : x s = .ok b t) : haltOnTrap x s = .ok b t := by
  simp [haltOnTrap, h]

end

/-- Settles O9: the odd-address check, then the bus cycle by what answers it. -/
theorem accessChecksInOrder : Obligations.AccessChecksInOrder := by
  intro s wide a v
  refine ⟨fun hodd => ⟨memRead_odd hodd, memWrite_odd hodd⟩, fun heven hadmp => ?_,
    fun write k => answers_eq_some_iff s.cfg write wide a k⟩
  rw [memRead_even heven, memWrite_even heven, busWrite_apply hadmp]
  refine ⟨busRead_absent hadmp, fun h => by rw [h], busRead_of_plain hadmp, fun h => ?_, fun h => by rw [h],
    fun h => ⟨s.deviceWord wide (s.reloc a), _, rfl, fun hbyte => ?_, busRead_of_device hadmp h⟩, fun h => by rw [h]⟩
  · rw [h]; rfl
  · rw [hbyte]; exact deviceWord_byte s _

/-! ### Undisturbed accesses (R80, R81) -/

theorem streamRead_memory {s : State} {wide : Bool} {a : Word} (hc : s.calm) (heven : (wide && a.getLsbD 0) = false)
    (hm : s.memoryAt (s.relocStream a) = true) : streamRead wide a s = .ok (s.mem.read wide (s.relocStream a)) s := by
  rw [streamRead_even heven, bind_apply, busRead_memory hc hm]
  exact prefetched_none hc.no_stale

theorem fetch16_memory {s : State} (hc : s.calm) (heven : s.pc.getLsbD 0 = false)
    (hm : s.memoryAt (s.relocStream s.pc) = true) :
    fetch16 s = .ok (s.mem.read true (s.relocStream s.pc)) (s.setPc (s.pc + 2)) := by
  simp [fetch16, streamRead_memory hc (show (true && s.pc.getLsbD 0) = false from heven) hm]

/-- Settles O11: a stack access inside the limits is the bus cycle, and that is plain. -/
theorem stackAndStreamAccesses : Obligations.StackAndStreamAccesses := by
  intro s own wide a v hc
  refine ⟨streamRead_memory hc, fun htop hlp => ?_, fetch16_memory hc⟩
  have hin := outsideStack_eq_false htop hlp
  refine ⟨fun hm => ⟨?_, fun heven => ?_⟩, fun hm => ⟨?_, fun heven => ?_⟩⟩
  · rw [pstackRead_inside hin, busRead_memory hc hm]
  · rw [sstackRead_inside hin heven, haltOnTrap_ok (busRead_memory hc hm)]
  · rw [pstackWrite_inside hin, busWrite_ram hc hm]; rfl
  · rw [sstackWrite_inside hin heven, haltOnTrap_ok (busWrite_ram hc hm)]; rfl

/-! ### Accesses that spare a byte

`Spares a` says what an instruction keeps of the byte at `a`; the location it writes is known by what located it. -/

/-- SPS stays, and where no ADMP edit is to come none is afterwards and the byte at `a` is as it was. -/
structure Spares (a : Nat) (s t : State) : Prop where
  sps : t.sps = s.sps := by intros; rfl
  admp : s.admp = [] → t.admp = [] := by exact id
  byte : s.admp = [] → t.mem.readByte a = s.mem.readByte a := by intros; rfl

section
variable {a : Nat}

theorem spares_frame (a : Nat) : Frame (Spares a) where
  refl _ := {}
  trans h k := ⟨k.sps.trans h.sps, k.admp ∘ h.admp, fun hadmp => (k.byte (h.admp hadmp)).trans (h.byte hadmp)⟩

theorem spares_setG (s : State) (r : GReg) (v : Word) : Spares a s (s.setG r v) := by cases r <;> exact {}

theorem keepsAt_of_eq {α : Type} {R : State → State → Prop} {x y : M α} {s : State} (h : x s = y s)
    (hy : KeepsAt R y s) : KeepsAt R x s := by
  unfold KeepsAt
  rw [h]
  exact hy

theorem spares_of_error {α : Type} {x : M α} {s : State} {e : Abort} (h : x s = .error e s) :
    KeepsAt (Spares a) x s := by
  unfold KeepsAt
  rw [h]
  exact {}

theorem admpTick_spares : Keeps (Spares a) admpTick := by
  refine keeps_modify fun s => ?_
  split
  · exact {}
  · next h =>
      have hsome : s.admp ≠ [] := by rw [h]; exact nofun
      exact { admp := fun hadmp => absurd hadmp hsome, byte := fun hadmp => absurd hadmp hsome }

theorem busRead_spares (wide : Bool) (pa : Word) : Keeps (Spares a) (busRead wide pa) := by
  have hcheck := fun (c : Config) (w : Word) => keeps_bind (spares_frame a)
    (keeps_raiseIf (spares_frame a) (Config.parityError c wide pa) .parity) (fun _ => keeps_pure (spares_frame a) w)
  refine keeps_bind (spares_frame a) admpTick_spares (fun _ => keeps_get_bind fun s => ?_)
  cases Config.answers s.cfg false wide pa with
  | none => exact keeps_throw (spares_frame a) _ s
  | some k =>
    cases k
    case ram => exact hcheck _ _ s
    case rom => exact hcheck _ _ s
    case device => exact keepsAt_bind (spares_frame a) (keepsAt_set {}) (fun _ t _ => hcheck _ _ t)

/-- A write cycle that is not at `a` spares the byte there. -/
theorem busWrite_spares {own wide : Bool} {pa : Word} (h : a ∉ accessBytes wide pa) (v : Word) :
    Keeps (Spares a) (busWrite own wide pa v) := by
  refine keeps_bind (spares_frame a) admpTick_spares (fun _ => keeps_get_bind fun s => ?_)
  cases Config.answers s.cfg true wide pa with
  | none => exact keeps_throw (spares_frame a) _ s
  | some k =>
    cases k
    case ram => exact keepsAt_set { byte := fun _ => readByte_write_other h s.mem v }
    case rom => exact keeps_throw (spares_frame a) _ s
    case device => exact keepsAt_set {}

theorem memRead_spares (wide : Bool) (p : Word) : Keeps (Spares a) (memRead wide p) :=
  keeps_bind (spares_frame a) (keeps_raiseIf (spares_frame a) _ _)
    (fun _ => keeps_get_bind fun s => busRead_spares _ _ s)

theorem prefetched_spares (wide : Bool) (pa v : Word) : Keeps (Spares a) (prefetched wide pa v) := by
  refine keeps_get_bind fun s => ?_
  split
  · exact keepsAt_bind (spares_frame a) (keepsAt_set {}) (fun _ t _ => keeps_pure (spares_frame a) _ t)
  · exact keeps_pure (spares_frame a) _ s

theorem streamRead_spares (wide : Bool) (p : Word) : Keeps (Spares a) (streamRead wide p) :=
  keeps_bind (spares_frame a) (keeps_raiseIf (spares_frame a) _ _) (fun _ => keeps_get_bind fun s =>
    keeps_bind (spares_frame a) (busRead_spares _ _) (fun _ => prefetched_spares _ _ _) s)

theorem pstackRead_spares (wide : Bool) (p : Word) : Keeps (Spares a) (pstackRead wide p) :=
  keeps_get_bind fun s => keeps_bind (spares_frame a) (keeps_raiseIf (spares_frame a) _ _)
    (fun _ => busRead_spares _ _) s

theorem pstackWrite_spares {wide : Bool} {p : Word} (h : a ∉ accessBytes wide p) (v : Word) :
    Keeps (Spares a) (pstackWrite wide p v) :=
  keeps_get_bind fun s => keeps_bind (spares_frame a) (keeps_raiseIf (spares_frame a) _ _)
    (fun _ => busWrite_spares h v) s

theorem fetch16_spares : Keeps (Spares a) fetch16 :=
  keeps_get_bind fun s => keeps_bind (spares_frame a) (streamRead_spares _ _)
    (fun _ => keeps_bind (spares_frame a) (keeps_modify fun _ => {}) (fun _ => keeps_pure (spares_frame a) _)) s

/-- Locating an operand stores nothing. -/
theorem locate_spares (o : Operand) : Keeps (Spares a) (locate o) := by
  have hp := fun (l : Loc) => keeps_pure (spares_frame a) l
  have hfetch := fun {β : Type} (g : Word → M β) (hg : ∀ w, Keeps (Spares a) (g w)) =>
    keeps_bind (spares_frame a) fetch16_spares hg
  have hread := fun (p : Word) => keeps_bind (spares_frame a) (memRead_spares true p) (fun q => hp (.mem q))
  have hset := fun {s t : State} (h : Spares a s t) (g : PUnit → M Loc) (hg : ∀ u, Keeps (Spares a) (g u)) =>
    keepsAt_bind (spares_frame a) (keepsAt_set h) (fun u v _ => hg u v)
  cases o with
  | direct r => exact hp _
  | indirect r => exact keeps_get_bind fun s => hp _ s
  | indexed r => exact hfetch _ fun w => keeps_get_bind fun s => hp _ s
  | indexedIndirect r => exact hfetch _ fun w => keeps_get_bind fun s => hread _ s
  | spDirect => exact hp _
  | autodec =>
    exact keeps_bind (spares_frame a) (keeps_modify fun _ => {}) (fun _ => keeps_get_bind fun s => hp _ s)
  | autoinc => exact keeps_get_bind fun s => hset {} _ fun _ => hp _
  | stackTop => exact keeps_get_bind fun s => hp _ s
  | immediate => exact keeps_get_bind fun s => hset {} _ fun _ => hp _
  | absolute => exact hfetch _ fun w => hp _
  | relative => exact keeps_get_bind fun s => hfetch _ (fun w => hp _) s
  | relativeIndirect => exact keeps_get_bind fun s => hfetch _ (fun w => hread _) s

theorem readLoc_spares (n : Nat) (l : Loc) : Keeps (Spares a) (readLoc n l) := by
  have hp := fun (v : BitVec n) => keeps_pure (spares_frame a) v
  cases l with
  | reg r => exact keeps_get_bind fun s => hp _ s
  | spReg => exact keeps_get_bind fun s => hp _ s
  | mem p => exact keeps_bind (spares_frame a) (memRead_spares _ _) (fun _ => hp _)
  | imm p => exact keeps_bind (spares_frame a) (streamRead_spares _ _) (fun _ => hp _)
  | pstk p => exact keeps_bind (spares_frame a) (pstackRead_spares _ _) (fun _ => hp _)

theorem readOperand_spares (n : Nat) (o : Operand) : Keeps (Spares a) (readOperand n o) :=
  keeps_bind (spares_frame a) (locate_spares o) (fun l => readLoc_spares n l)

/-- Writing a location spares every byte it does not store to (40_addressing_modes.md R165). -/
theorem writeLoc_spares {n : Nat} {l : Loc} {s : State} (h : a ∉ storedBytes n l s) (v : BitVec n) :
    KeepsAt (Spares a) (writeLoc n l v) s := by
  cases l with
  | reg r => exact keeps_modify (fun s => spares_setG s r _) s
  | spReg => exact keeps_modify (R := Spares a) (fun _ => {}) s
  | mem p =>
    cases hodd : isWide n && p.getLsbD 0 with
    | true => exact spares_of_error (memWrite_odd hodd)
    | false => exact keepsAt_of_eq (memWrite_even hodd) (busWrite_spares h _ s)
  | imm p =>
    cases hodd : isWide n && p.getLsbD 0 with
    | true => exact spares_of_error (streamWrite_odd hodd)
    | false => exact keepsAt_of_eq (streamWrite_even hodd) (busWrite_spares h _ s)
  | pstk p => exact pstackWrite_spares h _ s

/-- Operand accesses leave the program base, so a location stays where it is until it is written. -/
theorem storedBytes_of_operandOnly {s t : State} (h : OperandOnly s t) (n : Nat) (l : Loc) :
    storedBytes n l t = storedBytes n l s := by
  have hstream : ∀ p, t.relocStream p = s.relocStream p := fun p => by rw [h.same]; rfl
  have hdata : ∀ p, t.reloc p = s.reloc p := fun p => by rw [h.same]; rfl
  cases l <;> simp only [storedBytes, hstream, hdata]

end

/-! ### Instructions that spare a byte -/

/-- From `s` operand `o` is located at no n-bit location that stores at `a`. -/
def Misses (a n : Nat) (o : Operand) (s : State) : Prop := ∀ l t, locate o s = .ok l t → a ∉ storedBytes n l t

section
variable {a n : Nat} {f d o : Operand} {l : Loc} {s t : State}

theorem keepsAt_get_bind {β : Type} {R : State → State → Prop} {g : State → M β} (h : KeepsAt R (g s) s) :
    KeepsAt R (get >>= g) s := h

theorem not_stored_after (h : a ∉ storedBytes n l s) (hst : OperandOnly s t) : a ∉ storedBytes n l t := by
  rwa [storedBytes_of_operandOnly hst]

theorem readLoc_ok {m : Nat} {l : Loc} {v : BitVec m} (h : readLoc m l s = .ok v t) : OperandOnly s t :=
  operandOnly_of_bus _ _ (keepsAt_ok (readLoc_busOnly m l s) h)

theorem setFlags_spares (p : Word) : Keeps (Spares a) (setFlags p) := keeps_modify fun _ => {}

theorem write_setFlags_spares (h : a ∉ storedBytes n l s) (v : BitVec n) (p : Word) :
    KeepsAt (Spares a) (writeLoc n l v >>= fun _ => setFlags p) s :=
  keepsAt_bind (spares_frame a) (writeLoc_spares h v) fun _ t _ => setFlags_spares p t

theorem twoReadWrite_spares {op : BitVec n → BitVec n → Word → BitVec n × Word}
    (h : ∀ v t, readOperand n f s = .ok v t → Misses a n d t) : KeepsAt (Spares a) (twoReadWrite n op f d) s :=
  keepsAt_bind (spares_frame a) (readOperand_spares n f s) fun sv t hsv =>
    keepsAt_bind (spares_frame a) (locate_spares d t) fun ld u hld =>
      keepsAt_bind (spares_frame a) (readLoc_spares n ld u) fun _ _ hdv =>
        keepsAt_get_bind (write_setFlags_spares (not_stored_after (h sv t hsv ld u hld) (readLoc_ok hdv)) _ _)

theorem moveOp_spares (h : ∀ v t, readOperand n f s = .ok v t → Misses a n d t) :
    KeepsAt (Spares a) (moveOp n f d) s :=
  keepsAt_bind (spares_frame a) (readOperand_spares n f s) fun sv t hsv =>
    keepsAt_bind (spares_frame a) (locate_spares d t) fun ld u hld =>
      keepsAt_bind (spares_frame a) (writeLoc_spares (h sv t hsv ld u hld) sv) fun _ v _ =>
        keepsAt_get_bind (setFlags_spares _ v)

theorem exchangeOp_spares
    (h : ∀ lf s1 v s2 ld s3, locate f s = .ok lf s1 → readLoc n lf s1 = .ok v s2 → locate d s2 = .ok ld s3 →
      a ∉ storedBytes n lf s3 ∧ a ∉ storedBytes n ld s3) : KeepsAt (Spares a) (exchangeOp n f d) s :=
  keepsAt_bind (spares_frame a) (locate_spares f s) fun lf s1 hlf =>
    keepsAt_bind (spares_frame a) (readLoc_spares n lf s1) fun sv s2 hsv =>
      keepsAt_bind (spares_frame a) (locate_spares d s2) fun ld s3 hld =>
        keepsAt_bind (spares_frame a) (readLoc_spares n ld s3) fun dv s4 hdv => by
          obtain ⟨hf, hd⟩ := h lf s1 sv s2 ld s3 hlf hsv hld
          refine keepsAt_bind (spares_frame a)
            (writeLoc_spares (not_stored_after hf (readLoc_ok hdv)) dv) fun _ s5 hw => ?_
          have h45 : OperandOnly s4 s5 := keepsAt_ok (writeLoc_operandOnly n lf dv s4) hw
          have h35 : OperandOnly s3 s5 := operandOnly_frame.trans (readLoc_ok hdv) h45
          exact keepsAt_bind (spares_frame a) (writeLoc_spares (not_stored_after hd h35) sv) fun _ s6 _ =>
            keepsAt_get_bind (setFlags_spares _ s6)

theorem oneReadWrite_spares {op : BitVec n → Word → BitVec n × Word} (h : Misses a n d s) :
    KeepsAt (Spares a) (oneReadWrite n op d) s :=
  keepsAt_bind (spares_frame a) (locate_spares d s) fun ld t hld =>
    keepsAt_bind (spares_frame a) (readLoc_spares n ld t) fun _ _ hdv =>
      keepsAt_get_bind (write_setFlags_spares (not_stored_after (h ld t hld) (readLoc_ok hdv)) _ _)

theorem oneWriteOnly_spares {op : Word → BitVec n × Word} (h : Misses a n d s) :
    KeepsAt (Spares a) (oneWriteOnly n op d) s :=
  keepsAt_bind (spares_frame a) (locate_spares d s) fun ld t hld =>
    keepsAt_get_bind (write_setFlags_spares (h ld t hld) _ _)

theorem oneWriteNegative_spares {op : BitVec n → Word → BitVec n × Word} (h : Misses a n d s) :
    KeepsAt (Spares a) (oneWriteNegative n op d) s :=
  keepsAt_bind (spares_frame a) (locate_spares d s) fun ld t hld =>
    keepsAt_bind (spares_frame a) (readLoc_spares n ld t) fun dv u hdv => by
      have hwrite := fun v => writeLoc_spares (not_stored_after (h ld t hld) (readLoc_ok hdv)) (v := v)
      refine keepsAt_get_bind (keepsAt_bind (spares_frame a) ?_ fun _ w _ => setFlags_spares _ w)
      cases dv.msb
      · exact keeps_pure (spares_frame a) () u
      · exact hwrite _

theorem storeSpecial_spares {reg : State → Word} (h : Misses a 16 d s) : KeepsAt (Spares a) (storeSpecial reg d) s :=
  keepsAt_bind (spares_frame a) (locate_spares d s) fun ld t hld => keepsAt_get_bind (writeLoc_spares (h ld t hld) _)

theorem sfgmbOp_spares (h : Misses a 8 d s) : KeepsAt (Spares a) (sfgmbOp d) s :=
  keepsAt_bind (spares_frame a) (locate_spares d s) fun ld t hld => keepsAt_get_bind <| by
    split
    · exact writeLoc_spares (h ld t hld) _
    · refine keepsAt_bind (spares_frame a) (keepsAt_set {}) fun _ u hu => ?_
      cases hu
      have hcount : OperandOnly t { t with freeCount := t.freeCount + 1 } := ⟨rfl, id, id, id⟩
      exact writeLoc_spares (not_stored_after (h ld t hld) hcount) _

theorem retOp_spares (h : Misses a 16 d s) : KeepsAt (Spares a) (retOp d) s :=
  keepsAt_bind (spares_frame a) (locate_spares d s) fun ld t hld =>
    keepsAt_bind (spares_frame a) (readLoc_spares 16 ld t) fun target u htarget =>
      keepsAt_bind (spares_frame a) (keeps_modify (fun _ => {}) u) fun _ v hv => keepsAt_get_bind <|
        keepsAt_bind (spares_frame a) (pstackRead_spares true _ v) fun link w hw => by
          cases hv
          have hjump := operandOnly_frame.trans (readLoc_ok htarget) (operandOnly_setPc u target)
          have hpop := operandOnly_of_bus _ _ (keepsAt_ok (pstackRead_busOnly true _ _) hw)
          have hmiss := not_stored_after (h ld t hld) (operandOnly_frame.trans hjump hpop)
          exact keepsAt_bind (spares_frame a) (writeLoc_spares hmiss link) fun _ z _ => keeps_modify (fun _ => {}) z

theorem requireUp_keeps {R : State → State → Prop} (hR : Frame R) : Keeps R requireUp :=
  keeps_get_bind fun s => keeps_raiseIf hR _ _ s

theorem storeInt_spares {k : AcReg} (h : Misses a 16 d s) : KeepsAt (Spares a) (storeInt k d) s :=
  keepsAt_bind (spares_frame a) (locate_spares d s) fun ld t hld =>
    keepsAt_bind (spares_frame a) (requireUp_keeps (spares_frame a) t) fun _ u hu =>
      have hmiss := not_stored_after (h ld t hld) (keepsAt_ok (requireUp_keeps operandOnly_frame t) hu)
      keepsAt_get_bind <| keepsAt_bind (spares_frame a) (writeLoc_spares hmiss _) fun _ v _ =>
        keeps_modify (fun _ => {}) v

/-- Reading the location of `f` and then operand `d` is what comes between locating `f` and writing it. -/
theorem djzOp_spares (h : Misses a 16 f s) : KeepsAt (Spares a) (djzOp f d) s :=
  keepsAt_bind (spares_frame a) (locate_spares f s) fun lf t hlf =>
    keepsAt_bind (spares_frame a) (readLoc_spares 16 lf t) fun sv u hsv =>
      keepsAt_bind (spares_frame a) (readOperand_spares 16 d u) fun target v htarget => by
        have htv := operandOnly_frame.trans (readLoc_ok hsv) (keepsAt_ok (readOperand_operandOnly 16 d u) htarget)
        refine keepsAt_get_bind <| keepsAt_bind (spares_frame a)
          (writeLoc_spares (not_stored_after (h lf t hlf) htv) _) fun _ w _ => ?_
        exact keepsAt_bind (spares_frame a) (setFlags_spares _ w) fun _ z _ =>
          keeps_doIf (spares_frame a) _ (keeps_modify fun _ => {}) z

end

/-! ### Instructions that store nothing -/

section
variable {a n : Nat} {f d : Operand}

theorem twoReadOnly_spares {op : BitVec n → BitVec n → Word → BitVec n × Word} :
    Keeps (Spares a) (twoReadOnly n op f d) :=
  keeps_bind (spares_frame a) (readOperand_spares n f) fun _ =>
    keeps_bind (spares_frame a) (readOperand_spares n d) fun _ => keeps_get_bind fun s => setFlags_spares _ s

theorem oneReadOnly_spares {op : BitVec n → Word → BitVec n × Word} : Keeps (Spares a) (oneReadOnly n op d) :=
  keeps_bind (spares_frame a) (readOperand_spares n d) fun _ => keeps_get_bind fun s => setFlags_spares _ s

theorem loadSpecial_spares {upd : Word → State → State} (h : ∀ v s, Spares a s (upd v s)) :
    Keeps (Spares a) (loadSpecial upd d) :=
  keeps_bind (spares_frame a) (readOperand_spares 16 d) fun v => keeps_modify (h v)

theorem locateLong_keeps {R : State → State → Prop} (hR : Frame R) (o : Operand) : Keeps R (locateLong o) := by
  unfold locateLong
  cases pairOf o with
  | none => exact keeps_throw hR _
  | some p => exact keeps_pure hR p

theorem readPair_keeps {R : State → State → Prop} (hR : Frame R) (p : Pair) : Keeps R (readPair p) :=
  keeps_get_bind fun s => keeps_pure hR _ s

theorem writePair_spares (p : Pair) (v : Long) : Keeps (Spares a) (writePair p v) := by
  refine keeps_modify fun s => ?_
  unfold State.setPair
  split <;> exact (spares_frame a).trans (spares_setG _ _ _) (spares_setG _ _ _)

theorem longShift_spares {sh : ShiftRule 32} : Keeps (Spares a) (longShift sh d) :=
  keeps_bind (spares_frame a) (locateLong_keeps (spares_frame a) d) fun p =>
    keeps_bind (spares_frame a) (readPair_keeps (spares_frame a) p) fun _ => keeps_get_bind fun s =>
      keeps_bind (spares_frame a) (writePair_spares p _) (fun _ => setFlags_spares _) s

theorem branchIf_spares (cond : Word → Bool) (off : BitVec 8) : Keeps (Spares a) (branchIf cond off) :=
  keeps_modify fun s => by split <;> exact {}

theorem ercOp_spares (k : BitVec 7) : Keeps (Spares a) (ercOp k) := keeps_modify fun s => by split <;> exact {}

theorem maskOp_spares (g : BitVec 7 → BitVec 7) : Keeps (Spares a) (maskOp g) := keeps_modify fun _ => {}

theorem popToReg_spares (r : GReg) : Keeps (Spares a) (popToReg r) :=
  keeps_get_bind fun s => keeps_bind (spares_frame a) (pstackRead_spares true _)
    (fun v => keeps_modify fun s => (spares_frame a).trans (spares_setG s r v) {}) s

theorem restoreRegisters_spares : Keeps (Spares a) restoreRegisters := by
  have hthen := fun (r : GReg) {x : M Unit} (hx : Keeps (Spares a) x) =>
    keeps_bind (spares_frame a) (popToReg_spares r) fun _ => hx
  exact hthen .ra (hthen .rb (hthen .rc (hthen .rd (hthen .re (popToReg_spares .rf)))))

theorem putResult_spares (s : State) (w : Bool) (k : AcReg) (x : Long × AstromCodes) :
    Spares a s (s.putResult w k x) := by
  cases w
  · exact {}
  · cases k <;> exact {}

theorem longSource_spares (p : Operand) : Keeps (Spares a) (longSource p) :=
  keeps_bind (spares_frame a) (locateLong_keeps (spares_frame a) p) fun q => readPair_keeps (spares_frame a) q

theorem acSource_spares (k : AcReg) : Keeps (Spares a) (acSource k) :=
  keeps_get_bind fun s => keeps_pure (spares_frame a) _ s

theorem acIntSource_spares (k : AcReg) : Keeps (Spares a) (acIntSource k) :=
  keeps_get_bind fun s => keeps_pure (spares_frame a) _ s

theorem astromOp_spares {α : Type} {src : M α} {op : Config → Long → α → Long × AstromCodes} {w : Bool} {k : AcReg}
    (hsrc : Keeps (Spares a) src) : Keeps (Spares a) (astromOp src op w k) :=
  keeps_bind (spares_frame a) hsrc fun _ => keeps_bind (spares_frame a) (requireUp_keeps (spares_frame a)) fun _ =>
    keeps_get_bind fun s => keepsAt_bind (spares_frame a) (keepsAt_set (putResult_spares s w k _)) fun _ t _ =>
      keeps_raiseIf (spares_frame a) _ _ t

theorem storeFloat_spares {k : AcReg} : Keeps (Spares a) (storeFloat k d) :=
  keeps_bind (spares_frame a) (locateLong_keeps (spares_frame a) d) fun p =>
    keeps_bind (spares_frame a) (requireUp_keeps (spares_frame a)) fun _ => keeps_get_bind fun s =>
      keeps_bind (spares_frame a) (writePair_spares p _) (fun _ => keeps_modify fun _ => {}) s

end

/-- An instruction that left SPS as it was took no exception: every trap is seen there. -/
theorem runM_of_sps_eq {x : M Unit} {s t : State} (herror : ∀ {e u}, x s = .error e u → u.sps = s.sps)
    (h : runM x s = .next t) (hsps : t.sps = s.sps) :
    x s = .ok () t ∨ ∃ u, x s = .error .halt u ∧ t = { u with run := .halt } := by
  obtain ⟨u, hxu, hu⟩ | ⟨e, u, hxu, hu⟩ | ⟨u, hxu, hu⟩ | ⟨_, _, _, hu⟩ := runM_cases x s
  · cases hu.symm.trans h; exact .inl hxu
  · exact absurd (hsps.trans (herror hxu).symm) (raiseInInstr_sps_ne (hu.symm.trans h))
  · cases hu.symm.trans h; exact .inr ⟨u, hxu, rfl⟩
  · cases hu.symm.trans h

/-- What the meaning of such an instruction spares is spared in the state it answers. -/
theorem runM_spares {a : Nat} {x : M Unit} {s t : State} (hx : KeepsAt (Spares a) x s) (h : runM x s = .next t)
    (hsps : t.sps = s.sps) : Spares a s t := by
  obtain hxt | ⟨u, hxu, rfl⟩ := runM_of_sps_eq (fun hxu => (keepsAt_error hx hxu).sps) h hsps
  · exact keepsAt_ok hx hxt
  · exact (spares_frame a).trans (keepsAt_error hx hxu) {}

/-- What an instruction that stores nothing names as written is a register. -/
theorem misses_of_storesNothing {a n : Nat} {i : Instr} {o : Operand} {s : State} (h : i.storesNothing = true)
    (ho : o ∈ i.written) : Misses a n o s := by
  intro l t hl
  unfold Instr.storesNothing at h
  split at h
  · cases h
  · cases h
  · have hreg := List.all_eq_true.1 h o ho
    cases o with
    | direct r => cases hl; exact List.not_mem_nil
    | spDirect => cases hl; exact List.not_mem_nil
    | indirect | indexed | indexedIndirect | autodec | autoinc | stackTop | immediate | absolute | relative
    | relativeIndirect => cases hreg

/-- An instruction that stores nothing spares every byte, by its shape. -/
theorem spares_of_storesNothing (a : Nat) {i : Instr} (hsps : i.writesSps = false) (h : i.storesNothing = true) :
    ∃ x, (∀ s, exec i s = runM x s) ∧ Keeps (Spares a) x := by
  have hmiss := fun {n : Nat} {o : Operand} {s : State} (ho : o ∈ i.written) =>
    misses_of_storesNothing (a := a) (n := n) (s := s) h ho
  cases i with
  | add f d | addb f d | dac f d | dacb f d | sub f d | subb f d | dsb f d | dsbb f d | and f d | andb f d | or f d
  | orb f d | msk f d | mskb f d | xor f d | xorb f d | xnr f d | xnrb f d =>
    exact ⟨_, fun _ => rfl, fun _ => twoReadWrite_spares fun _ _ _ => hmiss (List.mem_singleton_self d)⟩
  | cmp f d | cmpb f d | coc f d | cocb f d | czc f d | czcb f d => exact ⟨_, fun _ => rfl, twoReadOnly_spares⟩
  | mov f d | movb f d =>
    exact ⟨_, fun _ => rfl, fun _ => moveOp_spares fun _ _ _ => hmiss (List.mem_singleton_self d)⟩
  | exc f d | excb f d =>
    refine ⟨_, fun _ => rfl, fun s => exchangeOp_spares fun lf s1 v s2 ld s3 hlf hv hld => ⟨?_, ?_⟩⟩
    · have hd := keepsAt_ok (locate_operandOnly d s2) hld
      exact not_stored_after (hmiss List.mem_cons_self lf s1 hlf) (operandOnly_frame.trans (readLoc_ok hv) hd)
    · exact hmiss (List.mem_cons_of_mem _ (List.mem_singleton_self d)) ld s3 hld
  | djz f d => exact ⟨_, fun _ => rfl, fun _ => djzOp_spares (hmiss (List.mem_singleton_self f))⟩
  | neg d | negb d | adc d | adcb d | sb d | sbb d | inc d | incb d | dcr d | dcrb d | ict d | ictb d | dct d | dctb d
  | cmt d | cmtb d | swb d | sld d | sldb d | sdc d | sdcb d | rdc d | rdcb d | sad d | sadb d | rtd d | rtdb d
  | sle d | sleb d | sec d | secb d | recw d | recb d | rte d | rteb d =>
    exact ⟨_, fun _ => rfl, fun _ => oneReadWrite_spares (hmiss (List.mem_singleton_self d))⟩
  | stz d | stzb d | sto d | stob d | sxt d | sxtb d =>
    exact ⟨_, fun _ => rfl, fun _ => oneWriteOnly_spares (hmiss (List.mem_singleton_self d))⟩
  | abs d | absb d => exact ⟨_, fun _ => rfl, fun _ => oneWriteNegative_spares (hmiss (List.mem_singleton_self d))⟩
  | cpz d | cpzb d => exact ⟨_, fun _ => rfl, oneReadOnly_spares⟩
  | sldl d | sdcl d | rdcl d | sadl d | rtdl d | slel d | secl d | recl d | rtel d =>
    exact ⟨_, fun _ => rfl, longShift_spares⟩
  | ret d => exact ⟨_, fun _ => rfl, fun _ => retOp_spares (hmiss (List.mem_singleton_self d))⟩
  | slp d | smk d | ssps d =>
    exact ⟨_, fun _ => rfl, fun _ => storeSpecial_spares (hmiss (List.mem_singleton_self d))⟩
  | sfgmb d => exact ⟨_, fun _ => rfl, fun _ => sfgmbOp_spares (hmiss (List.mem_singleton_self d))⟩
  | jmp d | clp d | cmk d | dmi d | mki d => exact ⟨_, fun _ => rfl, loadSpecial_spares fun _ _ => {}⟩
  | halt => exact ⟨modify fun s => { s with run := .halt }, fun _ => rfl, keeps_modify fun _ => {}⟩
  | wait => exact ⟨modify fun s => { s with run := .wait }, fun _ => rfl, keeps_modify fun _ => {}⟩
  | nop => exact ⟨pure (), fun _ => rfl, keeps_pure (spares_frame a) ()⟩
  | crg => exact ⟨_, fun _ => rfl, restoreRegisters_spares⟩
  | dr x | dco x | dcz x | dvo x | dvz x | dzo x | dzz x | dso x | dsz x | dtao x | dtaz x | dtbo x | dtbz x
  | dtco x | dtcz x | dge x | dlt x | dgt x | dle x | dhi x | dls x | dhs x | dlo x =>
    exact ⟨_, fun _ => by unfold exec; rfl, branchIf_spares _ x⟩
  | erc k => exact ⟨_, fun _ => rfl, ercOp_spares k⟩
  | cfo k | cfz k | ccc k => exact ⟨_, fun _ => by unfold exec; rfl, maskOp_spares _⟩
  | cnm l => exact ⟨_, fun _ => rfl, keeps_modify fun _ => {}⟩
  | smpfp k p | supfp k p | mlpfp k p | dvpfp k p | ngpfp k p | cmpfp k p | pfip k p | crpf k p =>
    exact ⟨_, fun _ => rfl, astromOp_spares (longSource_spares p)⟩
  | smip k p | suip k p | mlip k p | dvip k p | ipfp k p | cri k p =>
    exact ⟨_, fun _ => rfl, astromOp_spares (readOperand_spares 16 p)⟩
  | smpfm k b | supfm k b | mlpfm k b | dvpfm k b | ngpfm k b | abpf k b | cmpfm k b | pfim k b | cprgi k b =>
    exact ⟨_, fun _ => rfl, astromOp_spares (acSource_spares b)⟩
  | smim k b | suim k b | mlim k b | dvim k b | ngin k b | absi k b | ipfm k b =>
    exact ⟨_, fun _ => rfl, astromOp_spares (acIntSource_spares b)⟩
  | azpf k p => exact ⟨_, fun _ => rfl, storeFloat_spares⟩
  | azi k p => exact ⟨_, fun _ => rfl, fun _ => storeInt_spares (hmiss (List.mem_singleton_self p))⟩
  | jsb f d | srg => cases h
  | csps d | rst | exs | rtt | rti | btp | trapn n => cases hsps

/-- Settles O55: SPS as it was means that no exception was taken. -/
theorem nonStoringInstructionsKeepMemory : Obligations.NonStoringInstructionsKeepMemory := by
  intro i s t hadmp hexec hwrites hsps hnothing a
  obtain ⟨x, hx, hkeeps⟩ := spares_of_storesNothing a hwrites hnothing
  exact (runM_spares (hkeeps s) ((hx s).symm.trans hexec) hsps).byte hadmp

/-! ### The instructions of a list are of its shape -/

theorem exec_wordTwo {q} (hq : q ∈ wordTwo) (f d : Operand) (s : State) :
    exec (q.1 f d) s = runM (twoReadWrite 16 q.2 f d) s := by
  fin_cases hq <;> rfl

theorem exec_byteTwo {q} (hq : q ∈ byteTwo) (f d : Operand) (s : State) :
    exec (q.1 f d) s = runM (twoReadWrite 8 q.2 f d) s := by
  fin_cases hq <;> rfl

theorem exec_wordOne {q} (hq : q ∈ wordOne) (d : Operand) (s : State) :
    exec (q.1 d) s = runM (oneReadWrite 16 q.2 d) s := by
  fin_cases hq <;> rfl

theorem exec_byteOne {q} (hq : q ∈ byteOne) (d : Operand) (s : State) :
    exec (q.1 d) s = runM (oneReadWrite 8 q.2 d) s := by
  fin_cases hq <;> rfl

theorem exec_wordStore {q} (hq : q ∈ wordStore) (d : Operand) (s : State) :
    exec (q.1 d) s = runM (oneWriteOnly 16 q.2 d) s := by
  fin_cases hq <;> rfl

theorem exec_byteStore {q} (hq : q ∈ byteStore) (d : Operand) (s : State) :
    exec (q.1 d) s = runM (oneWriteOnly 8 q.2 d) s := by
  fin_cases hq <;> rfl

/-! ### Instructions with a destination in memory -/

/-- A computation has one answer: what holds of the one given holds of every one. -/
theorem forall_ok_of_ok {α : Type} {x : M α} {s t : State} {v : α} {P : α → State → Prop} (hx : x s = .ok v t)
    (h : P v t) : ∀ v' t', x s = .ok v' t' → P v' t' := by
  intro v' t' hx'
  cases hx.symm.trans hx'
  exact h

theorem misses_of_locate {a n : Nat} {o : Operand} {l : Loc} {s t : State} (hl : locate o s = .ok l t)
    (h : a ∉ storedBytes n l t) : Misses a n o s := forall_ok_of_ok (P := fun l t => a ∉ storedBytes n l t) hl h

theorem misses_after_source {a n : Nat} {f d : Operand} {v : BitVec n} {l : Loc} {s s1 s2 : State}
    (hv : readOperand n f s = .ok v s1) (hl : locate d s1 = .ok l s2) (h : a ∉ storedBytes n l s2) :
    ∀ v' t, readOperand n f s = .ok v' t → Misses a n d t :=
  forall_ok_of_ok (P := fun _ t => Misses a n d t) hv (misses_of_locate hl h)

/-- The exchange writes where its two operands were located, the first one seen from after the second (R214). -/
theorem exchange_misses {a n : Nat} {f d : Operand} {lf ld : Loc} {v : BitVec n} {s s1 s2 s3 : State}
    (hlf : locate f s = .ok lf s1) (hv : readLoc n lf s1 = .ok v s2) (hld : locate d s2 = .ok ld s3)
    (hf : a ∉ storedBytes n lf s3) (hd : a ∉ storedBytes n ld s3) :
    ∀ lf' t1 v' t2 ld' t3, locate f s = .ok lf' t1 → readLoc n lf' t1 = .ok v' t2 → locate d t2 = .ok ld' t3 →
      a ∉ storedBytes n lf' t3 ∧ a ∉ storedBytes n ld' t3 := by
  intro lf' t1 v' t2 ld' t3 hlf' hv' hld'
  cases hlf.symm.trans hlf'
  cases hv.symm.trans hv'
  cases hld.symm.trans hld'
  exact ⟨hf, hd⟩

/-- A push spares every byte but those of the word SP then points at. -/
theorem pushProgram_spares {a : Nat} {v : Word} {s t : State} {u : Unit} (h : pushProgram v s = .ok u t)
    (hlow : a ≠ t.sp.toNat) (hhigh : a ≠ (t.sp + 1).toNat) : Spares a s t := by
  have hwrite : pstackWrite true (s.setSp (s.sp - 2)).sp v (s.setSp (s.sp - 2)) = .ok u t := h
  have hsp : t.sp = (s.setSp (s.sp - 2)).sp := by
    rw [(keepsAt_ok (pstackWrite_busOnly _ _ _ _) hwrite).same]
  rw [hsp] at hlow hhigh
  have hpush := keepsAt_ok (pstackWrite_spares (not_mem_accessBytes_word.2 ⟨hlow, hhigh⟩) v _) hwrite
  exact (spares_frame a).trans {} hpush

/-- JSB stores in the link and in the word pushed (41_two_operand.md R216). -/
theorem jsbOp_spares {a : Nat} {f d : Operand} {s t : State} {u : Unit} (h : jsbOp f d s = .ok u t)
    (hmiss : Misses a 16 f s) (hlow : a ≠ t.sp.toNat) (hhigh : a ≠ (t.sp + 1).toNat) : Spares a s t := by
  obtain ⟨lf, s1, hlf, h⟩ := bind_ok.1 h
  obtain ⟨link, s2, hlink, h⟩ := bind_ok.1 h
  obtain ⟨target, s3, htarget, h⟩ := bind_ok.1 h
  obtain ⟨_, _, hget, h⟩ := bind_ok.1 h
  cases hget
  obtain ⟨_, s4, hwrite, h⟩ := bind_ok.1 h
  obtain ⟨_, s5, hpush, hjump⟩ := bind_ok.1 h
  cases hjump
  have h12 : OperandOnly s1 s2 := readLoc_ok hlink
  have h13 : OperandOnly s1 s3 := operandOnly_frame.trans h12 (keepsAt_ok (readOperand_operandOnly 16 d s2) htarget)
  have hlocated : Spares a s s1 := keepsAt_ok (locate_spares f s) hlf
  have hread : Spares a s1 s2 := keepsAt_ok (readLoc_spares 16 lf s1) hlink
  have hdest : Spares a s2 s3 := keepsAt_ok (readOperand_spares 16 d s2) htarget
  have hstore : Spares a s3 s4 := keepsAt_ok (writeLoc_spares (not_stored_after (hmiss lf s1 hlf) h13) _) hwrite
  have hpushed : Spares a s4 s5 := pushProgram_spares hpush hlow hhigh
  have htrans := fun {s t u : State} => (spares_frame a).trans (s := s) (t := t) (u := u)
  exact htrans hlocated <| htrans hread <| htrans hdest <| htrans hstore <| htrans hpushed {}

/-- An ordinary instruction that left SPS as it was came to its end. -/
theorem Ordinary.ok_of_sps_eq {i : Instr} {x : M Unit} (hx : Ordinary i x) {s t : State} (h : exec i s = .next t)
    (hsps : t.sps = s.sps) : x s = .ok () t := by
  have hrun : runM x s = .next t := (hx.exec_eq s).symm.trans h
  obtain hxt | ⟨u, hxu, _⟩ := runM_of_sps_eq (fun hxu => ((hx.ends s).error hxu).sps) hrun hsps
  · exact hxt
  · exact absurd hxu (hx.ends s).no_halt

theorem jsb_ordinary (f d : Operand) : Ordinary (.jsb f d) (jsbOp f d) :=
  ordinary_of_partly (fun _ => rfl) rfl (jsbOp_partly rfl rfl rfl rfl rfl)

/-- Settles O56, clause by clause: the location given is the one the instruction writes. `storedBytes` has a byte operand
of an SP mode at the address in SP and an immediate destination at its extension word (D19, D20; log 16). -/
theorem storingInstructionsKeepOtherBytes : Obligations.StoringInstructionsKeepOtherBytes := by
  intro s t a hadmp _ hsps
  have hbyte := fun {x : M Unit} (hx : KeepsAt (Spares a) x s) (h : runM x s = .next t) =>
    (runM_spares hx h hsps).byte hadmp
  refine ⟨?wordPair, ?bytePair, ?word, ?byte, ?azi, ?djz, ?exc, ?excb, ?jsb⟩
  case wordPair =>
    intro f d sv s1 ld s2 hsv hld ha i hi h
    have hmiss := misses_after_source hsv hld ha
    obtain rfl | hi := List.mem_cons.1 hi
    · exact hbyte (moveOp_spares hmiss) h
    · obtain ⟨q, hq, rfl⟩ := List.mem_map.1 hi
      exact hbyte (twoReadWrite_spares hmiss) ((exec_wordTwo hq f d s).symm.trans h)
  case bytePair =>
    intro f d sv s1 ld s2 hsv hld ha i hi h
    have hmiss := misses_after_source hsv hld ha
    obtain rfl | hi := List.mem_cons.1 hi
    · exact hbyte (moveOp_spares hmiss) h
    · obtain ⟨q, hq, rfl⟩ := List.mem_map.1 hi
      exact hbyte (twoReadWrite_spares hmiss) ((exec_byteTwo hq f d s).symm.trans h)
  case word =>
    intro d ld s1 hld ha i hi h
    have hmiss := misses_of_locate hld ha
    simp only [List.mem_append, List.mem_cons, List.not_mem_nil, or_false, List.mem_map] at hi
    obtain ((rfl | rfl | rfl | rfl | rfl) | ⟨q, hq, rfl⟩) | ⟨q, hq, rfl⟩ := hi
    · exact hbyte (oneWriteNegative_spares hmiss) h
    · exact hbyte (storeSpecial_spares hmiss) h
    · exact hbyte (storeSpecial_spares hmiss) h
    · exact hbyte (storeSpecial_spares hmiss) h
    · exact hbyte (retOp_spares hmiss) h
    · exact hbyte (oneReadWrite_spares hmiss) ((exec_wordOne hq d s).symm.trans h)
    · exact hbyte (oneWriteOnly_spares hmiss) ((exec_wordStore hq d s).symm.trans h)
  case byte =>
    intro d ld s1 hld ha i hi h
    have hmiss := misses_of_locate hld ha
    simp only [List.mem_append, List.mem_cons, List.not_mem_nil, or_false, List.mem_map] at hi
    obtain ((rfl | rfl) | ⟨q, hq, rfl⟩) | ⟨q, hq, rfl⟩ := hi
    · exact hbyte (oneWriteNegative_spares hmiss) h
    · exact hbyte (sfgmbOp_spares hmiss) h
    · exact hbyte (oneReadWrite_spares hmiss) ((exec_byteOne hq d s).symm.trans h)
    · exact hbyte (oneWriteOnly_spares hmiss) ((exec_byteStore hq d s).symm.trans h)
  case azi => exact fun k p l s1 hl ha h => hbyte (storeInt_spares (misses_of_locate hl ha)) h
  case djz => exact fun f d lf s1 hlf ha h => hbyte (djzOp_spares (misses_of_locate hlf ha)) h
  case exc =>
    exact fun f d lf s1 sv s2 ld s3 hlf hsv hld hf hd h =>
      hbyte (exchangeOp_spares (exchange_misses hlf hsv hld hf hd)) h
  case excb =>
    exact fun f d lf s1 sv s2 ld s3 hlf hsv hld hf hd h =>
      hbyte (exchangeOp_spares (exchange_misses hlf hsv hld hf hd)) h
  case jsb =>
    intro f d lf s1 hlf ha h hlow hhigh
    have hend := (jsb_ordinary f d).ok_of_sps_eq h hsps
    exact (jsbOp_spares hend (misses_of_locate hlf ha) hlow hhigh).byte hadmp

end Sys2Proof.Machine
end

