-- ==== Sys2Proof/Proofs/Encoding.lean ====
section
/-! SUPPORT. The decoder and the encoder of 30_encoding.md: what the decoder answers in each of the formats, the round
trip of operands and of instructions, the words that are no instruction, and the obligations about them. -/

namespace Sys2Proof

/-! ### What the decoder answers, by the assigned instruction (R128 to R131) -/

section
variable {c : Config} {w : Word} {i : Instr}

theorem decode_of_unassigned (h : decodeAssigned c w = none) : decode c w = .error .unassigned := by
  simp [decode, h]

theorem decode_of_not_inVersion (h : decodeAssigned c w = some i) (hv : i.inVersion c = false) :
    decode c w = .error .notInMicroprogram10 := by
  simp [decode, h, hv]

theorem decode_of_not_longOk (h : decodeAssigned c w = some i) (hv : i.inVersion c = true) (hl : i.longOk = false) :
    decode c w = .error .longOperand := by
  simp [decode, h, hv, hl]

theorem decode_of_longOk (h : decodeAssigned c w = some i) (hv : i.inVersion c = true) (hl : i.longOk = true) :
    decode c w = .ok i := by
  simp [decode, h, hv, hl]

theorem decode_congr {v : Word} (h : decodeAssigned c w = decodeAssigned c v) : decode c w = decode c v := by
  simp only [decode, h]

end

/-! ### Long-word operands (R130) -/

theorem isPair_iff (p : Operand) : p.isPair = true ↔ p ∈ [Operand.direct .ra, .direct .rc, .direct .re] := by
  cases p with
  | direct r => cases r <;> decide
  | _ => simp [Operand.isPair]

theorem longOk_of_long {i : Instr} {p : Operand} (h : i.shape = .long p) : i.longOk = p.isPair := by
  simp [Instr.longOk, h]

theorem longOk_of_not_long {i : Instr} (h : ∀ p, i.shape ≠ .long p) : i.longOk = true := by
  unfold Instr.longOk
  split
  · exact absurd ‹_› (h _)
  all_goals rfl

/-- Settles O3: where the microprogram has the instruction, `longOk` alone decides. -/
theorem longOperandsMustBePairs : Obligations.LongOperandsMustBePairs := by
  refine fun c w i hdec hver => ⟨fun p hshape => ⟨fun hp => ?_, fun hp => ?_⟩, fun hshape => ?_⟩
  · exact decode_of_longOk hdec hver ((longOk_of_long hshape).trans ((isPair_iff p).2 hp))
  · have hpair : p.isPair = false := Bool.eq_false_iff.2 fun h => hp ((isPair_iff p).1 h)
    exact decode_of_not_longOk hdec hver ((longOk_of_long hshape).trans hpair)
  · exact decode_of_longOk hdec hver (longOk_of_not_long hshape)

/-! ### The formats of the word (R116, R117, R122, R124, R126)

The operation code of each format is the number in the bits above the operand fields; each lemma says which operation
codes are in its format. -/

/-- A field of a word as a number. -/
theorem toNat_extractLsb' (w : Word) (start len : Nat) :
    (w.extractLsb' start len).toNat = w.toNat / 2 ^ start % 2 ^ len := by
  rw [BitVec.extractLsb'_toNat, Nat.shiftRight_eq_div_pow]

/-- Bit 15 of a word says in which half of the numbers the word lies. -/
theorem getLsbD_15 (w : Word) : w.getLsbD 15 = decide (32768 ≤ w.toNat) := by
  have hw := w.isLt
  rw [BitVec.getLsbD, Nat.testBit_eq_decide_div_mod_eq, decide_eq_decide]
  omega

section
variable (c : Config) {w : Word}

theorem decodeAssigned_formatA (h7 : w.toNat / 4096 % 8 ≠ 7) (h : 2 ≤ w.toNat / 2048 % 16) :
    decodeAssigned c w = (codeA (w.extractLsb' 10 6).toNat).map
      fun k => k (decodeOperand c (w.extractLsb' 5 5)) (decodeOperand c (w.extractLsb' 0 5)) := by
  have h1 : w.toNat / 2048 % 16 ≠ 1 := by omega
  have h0 : w.toNat / 2048 % 16 ≠ 0 := by omega
  simp only [decodeAssigned, toNat_extractLsb', Nat.reducePow, h7, h1, h0, if_false]

theorem decodeAssigned_formatB (h : w.toNat / 2048 % 16 = 0) (h6 : w.toNat / 32 % 64 ≠ 0) :
    decodeAssigned c w = (codeB (w.extractLsb' 5 11).toNat).map fun k => k (decodeOperand c (w.extractLsb' 0 5)) := by
  have h7 : w.toNat / 4096 % 8 ≠ 7 := by omega
  simp only [decodeAssigned, toNat_extractLsb', Nat.reducePow, h7, h, h6, if_false, if_true, Nat.zero_ne_one]

theorem decodeAssigned_formatC (h : w.toNat / 32 % 1024 = 0) :
    decodeAssigned c w = if w.toNat / 8 = 0x1003 then some (.trapn (w.extractLsb' 0 3)) else codeC w.toNat := by
  have hw := w.isLt
  have h7 : w.toNat / 4096 % 8 ≠ 7 := by omega
  have h4 : w.toNat / 2048 % 16 = 0 := by omega
  have h6 : w.toNat / 32 % 64 = 0 := by omega
  have h13 : w.toNat / 8 % 8192 = w.toNat / 8 := Nat.mod_eq_of_lt (by omega)
  simp only [decodeAssigned, toNat_extractLsb', Nat.reducePow, h7, h4, h6, h13, if_false, if_true, Nat.zero_ne_one]

theorem decodeAssigned_formatD (h : w.toNat / 4096 % 8 = 7) :
    decodeAssigned c w = codeD (w.extractLsb' 0 8) (w.extractLsb' 8 8).toNat := by
  simp only [decodeAssigned, toNat_extractLsb', Nat.reducePow, h, if_true]

theorem decodeAssigned_formatE (h : w.toNat / 2048 = 17) :
    decodeAssigned c w = (codeE (w.extractLsb' 7 9).toNat).map
      fun k => k (decodeAc (w.extractLsb' 5 2)) (decodeOperand c (w.extractLsb' 0 5)) := by
  have h7 : w.toNat / 4096 % 8 ≠ 7 := by omega
  have h4 : w.toNat / 2048 % 16 = 1 := by omega
  have h15 : 32768 ≤ w.toNat := by omega
  simp only [decodeAssigned, getLsbD_15, toNat_extractLsb', Nat.reducePow, h7, h4, h15, decide_true, if_false, if_true]

theorem decodeAssigned_formatF (h : w.toNat / 2048 = 1) :
    decodeAssigned c w = (codeF (w.extractLsb' 7 9).toNat).map
      fun k => k (decodeAc (w.extractLsb' 5 2)) (decodeAc (w.extractLsb' 0 2)) := by
  have h7 : w.toNat / 4096 % 8 ≠ 7 := by omega
  have h4 : w.toNat / 2048 % 16 = 1 := by omega
  have h15 : ¬32768 ≤ w.toNat := by omega
  simp only [decodeAssigned, getLsbD_15, toNat_extractLsb', Nat.reducePow, h7, h4, h15, decide_false, if_false, if_true,
    Bool.false_eq_true]

end

/-! ### The code tables and the words that are no instruction (R129) -/

theorem codeA_eq_none_iff : ∀ op < 64, codeA op = none ↔ op % 32 < 4 ∨ 20 ≤ op % 32 ∨ op = 18 ∨ op = 19 := by decide

/-- Formato B by bit 15 and bits 10-5: the codes of R129 (c) and (d). -/
theorem codeB_eq_none_iff : ∀ (word : Bool), ∀ op6 < 64, op6 ≠ 0 → (codeB (1024 * word.toNat + op6) = none ↔
    (Machine.unassignedOp6 op6 || (!word && Machine.wordOnlyOp6 op6) || (word && op6 == 58)) = true) := by decide

/-- The words of Formato C less TRAPn (R123). -/
def wordsC : List Nat := [0, 1, 2, 3, 0x8004, 0x8005, 0x8007, 0x8008, 0x8009]

theorem codeC_eq_none_iff (n : Nat) : codeC n = none ↔ n ∉ wordsC := by
  unfold codeC wordsC
  split <;> simp_all

theorem space_of_mem_wordsC : ∀ n ∈ wordsC, n / 32 % 1024 = 0 ∧ n / 8 ≠ 0x1003 := by decide

/-- The operation codes of R129 (f). -/
def unassignedOp8 : List Nat := [0x79, 0x7F, 0xF6, 0xF7, 0xFE, 0xFF]

theorem param_of_mem_unassignedOp8 : ∀ op ∈ unassignedOp8, op / 16 % 8 = 7 := by decide

theorem codeD_eq_none_iff (p : BitVec 8) {op : Nat} (h : op < 256) (hpar : op / 16 % 8 = 7) :
    codeD p op = none ↔ op ∈ unassignedOp8 := by
  have hrange : (0x70 ≤ op ∧ op ≤ 0x7F) ∨ (0xF0 ≤ op ∧ op ≤ 0xFF) := by omega
  obtain ⟨hlow, hhigh⟩ | ⟨hlow, hhigh⟩ := hrange
  · interval_cases op <;> simp [codeD, unassignedOp8]
  · interval_cases op <;> simp [codeD, unassignedOp8]

theorem codeE_ne_none {op : Nat} (h : op / 16 = 17) : codeE op ≠ none := by
  have hlow : 272 ≤ op := by omega
  have hhigh : op < 288 := by omega
  interval_cases op <;> exact Option.some_ne_none _

theorem codeF_ne_none {op : Nat} (h : op / 16 = 1) : codeF op ≠ none := by
  have hlow : 16 ≤ op := by omega
  have hhigh : op < 32 := by omega
  interval_cases op <;> exact Option.some_ne_none _

/-- R129 (a) to (f) on the number of the word. -/
theorem unassignedWord_iff (w : Word) : Machine.unassignedWord w = true ↔
    (20 ≤ w.toNat / 1024 % 32 ∧ w.toNat / 1024 % 32 ≤ 27) ∨
    (w.toNat < 32768 ∧ (w.toNat / 1024 % 32 = 18 ∨ w.toNat / 1024 % 32 = 19)) ∨
    (w.toNat / 2048 % 16 = 0 ∧ w.toNat / 32 % 64 ≠ 0 ∧
      (Machine.unassignedOp6 (w.toNat / 32 % 64) || (!w.getLsbD 15 && Machine.wordOnlyOp6 (w.toNat / 32 % 64)) ||
        (w.getLsbD 15 && w.toNat / 32 % 64 == 58)) = true) ∨
    (w.toNat / 2048 % 16 = 0 ∧ w.toNat / 32 % 64 = 0 ∧ w.toNat < 32768 ∧ 4 ≤ w.toNat % 32) ∨
    (w.toNat / 2048 % 16 = 0 ∧ w.toNat / 32 % 64 = 0 ∧ 32768 ≤ w.toNat ∧
      (w.toNat % 32 ≤ 3 ∨ w.toNat % 32 = 6 ∨ (10 ≤ w.toNat % 32 ∧ w.toNat % 32 ≤ 23))) ∨
    w.toNat / 256 ∈ unassignedOp8 := by
  have hw := w.isLt
  have hbyte : w.toNat / 256 % 256 = w.toNat / 256 := Nat.mod_eq_of_lt (by omega)
  simp only [Machine.unassignedWord, toNat_extractLsb', getLsbD_15, Nat.reducePow, hbyte, Nat.div_one, Bool.or_eq_true,
    Bool.and_eq_true, Bool.not_eq_true', decide_eq_true_eq, decide_eq_false_iff_not, Nat.not_le, beq_iff_eq,
    bne_iff_ne, or_assoc, and_assoc, unassignedOp8, List.mem_cons, List.not_mem_nil, or_false]

/-! ### The formats share out the words, and each leaves the listed words unassigned (R129) -/

section
variable (c : Config) {w : Word}

/-- Outside the parameter space (f) says nothing. -/
theorem not_mem_unassignedOp8 (h7 : w.toNat / 4096 % 8 ≠ 7) : w.toNat / 256 ∉ unassignedOp8 :=
  fun hmem => h7 (by have := param_of_mem_unassignedOp8 _ hmem; omega)

theorem decodeAssigned_formatA_eq_none_iff (h7 : w.toNat / 4096 % 8 ≠ 7) (h : 2 ≤ w.toNat / 2048 % 16) :
    decodeAssigned c w = none ↔ Machine.unassignedWord w = true := by
  have h0 : w.toNat / 2048 % 16 ≠ 0 := by omega
  rw [decodeAssigned_formatA c h7 h, Option.map_eq_none_iff, codeA_eq_none_iff _ (BitVec.isLt _), unassignedWord_iff,
    toNat_extractLsb']
  simp only [h0, not_mem_unassignedOp8 h7, false_and, or_false]
  have hw := w.isLt
  omega

theorem decodeAssigned_formatB_eq_none_iff (h : w.toNat / 2048 % 16 = 0) (h6 : w.toNat / 32 % 64 ≠ 0) :
    decodeAssigned c w = none ↔ Machine.unassignedWord w = true := by
  have hop : (w.extractLsb' 5 11).toNat = 1024 * (w.getLsbD 15).toNat + w.toNat / 32 % 64 := by
    have hw := w.isLt
    rw [toNat_extractLsb', getLsbD_15]
    by_cases h15 : 32768 ≤ w.toNat
    · simp only [h15, decide_true, Bool.toNat_true]; omega
    · simp only [h15, decide_false, Bool.toNat_false]; omega
  have h18 : ¬(w.toNat / 1024 % 32 = 18 ∨ w.toNat / 1024 % 32 = 19) := by omega
  rw [decodeAssigned_formatB c h h6, Option.map_eq_none_iff, hop, codeB_eq_none_iff _ _ (Nat.mod_lt _ (by decide)) h6,
    unassignedWord_iff]
  simp only [h, h6, h18, not_mem_unassignedOp8 (w := w) (by omega), show ¬20 ≤ w.toNat / 1024 % 32 by omega, ne_eq,
    not_false_eq_true, true_and, false_and, and_false, or_false, false_or]

theorem decodeAssigned_formatC_eq_none_iff (h : w.toNat / 32 % 1024 = 0) :
    decodeAssigned c w = none ↔ Machine.unassignedWord w = true := by
  have h4 : w.toNat / 2048 % 16 = 0 := by omega
  have h6 : w.toNat / 32 % 64 = 0 := by omega
  have h18 : ¬(w.toNat / 1024 % 32 = 18 ∨ w.toNat / 1024 % 32 = 19) := by omega
  rw [decodeAssigned_formatC c h, unassignedWord_iff]
  simp only [h4, h6, h18, not_mem_unassignedOp8 (w := w) (by omega), show ¬20 ≤ w.toNat / 1024 % 32 by omega, ne_eq,
    not_true_eq_false, true_and, false_and, and_false, or_false, false_or]
  have hw := w.isLt
  split
  · simp only [reduceCtorEq, false_iff]; omega
  · rw [codeC_eq_none_iff]
    simp only [wordsC, List.mem_cons, List.not_mem_nil, or_false]
    omega

theorem decodeAssigned_formatD_eq_none_iff (h : w.toNat / 4096 % 8 = 7) :
    decodeAssigned c w = none ↔ Machine.unassignedWord w = true := by
  have hw := w.isLt
  have hop : (w.extractLsb' 8 8).toNat = w.toNat / 256 := by
    rw [toNat_extractLsb']; omega
  have h4 : w.toNat / 2048 % 16 ≠ 0 := by omega
  have h18 : ¬(w.toNat / 1024 % 32 = 18 ∨ w.toNat / 1024 % 32 = 19) := by omega
  rw [decodeAssigned_formatD c h, codeD_eq_none_iff _ (BitVec.isLt _) (by omega), unassignedWord_iff, hop]
  simp only [h4, h18, show ¬w.toNat / 1024 % 32 ≤ 27 by omega, false_and, and_false, false_or]

theorem decodeAssigned_astrom_eq_none_iff (h : w.toNat / 2048 % 16 = 1) :
    decodeAssigned c w = none ↔ Machine.unassignedWord w = true := by
  have hw := w.isLt
  have hassigned : ¬Machine.unassignedWord w = true := by
    rw [unassignedWord_iff]
    simp only [not_mem_unassignedOp8 (w := w) (by omega), or_false]
    omega
  refine iff_of_false ?_ hassigned
  by_cases h15 : w.toNat / 2048 = 1
  · rw [decodeAssigned_formatF c h15, Option.map_eq_none_iff]
    exact codeF_ne_none (by rw [toNat_extractLsb']; omega)
  · rw [decodeAssigned_formatE c (by omega), Option.map_eq_none_iff]
    exact codeE_ne_none (by rw [toNat_extractLsb']; omega)

end

/-- A word is in one format, by bits 14-12, 14-11 and 10-5 (R134). -/
theorem decodeAssigned_eq_none_iff (c : Config) (w : Word) :
    decodeAssigned c w = none ↔ Machine.unassignedWord w = true := by
  by_cases h7 : w.toNat / 4096 % 8 = 7
  · exact decodeAssigned_formatD_eq_none_iff c h7
  by_cases h1 : w.toNat / 2048 % 16 = 1
  · exact decodeAssigned_astrom_eq_none_iff c h1
  by_cases h0 : w.toNat / 2048 % 16 = 0
  · by_cases h6 : w.toNat / 32 % 64 = 0
    · exact decodeAssigned_formatC_eq_none_iff c (by omega)
    · exact decodeAssigned_formatB_eq_none_iff c h0 h6
  · exact decodeAssigned_formatA_eq_none_iff c h7 (by omega)

/-- Settles O2: the words without an instruction are found format by format, and the two refusals are the decoder's. -/
theorem unassignedWordsAreListed : Obligations.UnassignedWordsAreListed := by
  refine fun c w => ⟨decodeAssigned_eq_none_iff c w, fun h => ?_, fun i hdec hamp hcode => ?_⟩
  · exact decode_of_unassigned ((decodeAssigned_eq_none_iff c w).2 h)
  · exact decode_of_not_inVersion hdec (by simp [Instr.inVersion, hamp, hcode])

/-! ### Words put together from their fields

A field above the last piece of a concatenation is a field of the pieces above it. -/

section
variable (c : Config)

theorem decodeAssigned_appendA {hi : BitVec 6} (f d : BitVec 5) (h7 : hi.toNat / 4 % 8 ≠ 7)
    (h : 2 ≤ hi.toNat / 2 % 16) : decodeAssigned c (hi ++ f ++ d) =
      (codeA hi.toNat).map fun k => k (decodeOperand c f) (decodeOperand c d) := by
  have hop : BitVec.extractLsb' (n := 16) 10 6 (hi ++ f ++ d) = hi :=
    (BitVec.extractLsb'_append_eq_of_le (by decide)).trans BitVec.extractLsb'_append_eq_left
  have hfnt : BitVec.extractLsb' (n := 16) 5 5 (hi ++ f ++ d) = f :=
    (BitVec.extractLsb'_append_eq_of_le (by decide)).trans BitVec.extractLsb'_append_eq_right
  have hdst : BitVec.extractLsb' (n := 16) 0 5 (hi ++ f ++ d) = d := BitVec.extractLsb'_append_eq_right
  have hnum := congrArg BitVec.toNat hop
  rw [toNat_extractLsb'] at hnum
  rw [decodeAssigned_formatA c (by omega) (by omega), hop, hfnt, hdst]

theorem decodeAssigned_appendB {hi : BitVec 11} (d : BitVec 5) (h : hi.toNat / 64 % 16 = 0) (h6 : hi.toNat % 64 ≠ 0) :
    decodeAssigned c (hi ++ d) = (codeB hi.toNat).map fun k => k (decodeOperand c d) := by
  have hop : BitVec.extractLsb' (n := 16) 5 11 (hi ++ d) = hi := BitVec.extractLsb'_append_eq_left
  have hdst : BitVec.extractLsb' (n := 16) 0 5 (hi ++ d) = d := BitVec.extractLsb'_append_eq_right
  have hnum := congrArg BitVec.toNat hop
  rw [toNat_extractLsb'] at hnum
  rw [decodeAssigned_formatB c (by omega) (by omega), hop, hdst]

theorem decodeAssigned_appendTrap (n : BitVec 3) : decodeAssigned c ((0x1003 : BitVec 13) ++ n) = some (.trapn n) := by
  have hop : BitVec.extractLsb' (n := 16) 3 13 ((0x1003 : BitVec 13) ++ n) = 0x1003 := BitVec.extractLsb'_append_eq_left
  have hn : BitVec.extractLsb' (n := 16) 0 3 ((0x1003 : BitVec 13) ++ n) = n := BitVec.extractLsb'_append_eq_right
  have hnum : BitVec.toNat (w := 16) ((0x1003 : BitVec 13) ++ n) / 8 = 0x1003 := by
    have hw := BitVec.isLt (w := 16) ((0x1003 : BitVec 13) ++ n)
    have hnum := congrArg BitVec.toNat hop
    rw [toNat_extractLsb', show (0x1003 : BitVec 13).toNat = 0x1003 from rfl] at hnum
    omega
  rw [decodeAssigned_formatC c (by omega), if_pos hnum, hn]

theorem decodeAssigned_appendD {op : BitVec 8} (p : BitVec 8) (h : op.toNat / 16 % 8 = 7) :
    decodeAssigned c (op ++ p) = codeD p op.toNat := by
  have hop : BitVec.extractLsb' (n := 16) 8 8 (op ++ p) = op := BitVec.extractLsb'_append_eq_left
  have hpar : BitVec.extractLsb' (n := 16) 0 8 (op ++ p) = p := BitVec.extractLsb'_append_eq_right
  have hnum := congrArg BitVec.toNat hop
  rw [toNat_extractLsb'] at hnum
  rw [decodeAssigned_formatD c (by omega), hop, hpar]

theorem decodeAssigned_appendE {hi : BitVec 9} (a : BitVec 2) (d : BitVec 5) (h : hi.toNat / 16 = 17) :
    decodeAssigned c (hi ++ a ++ d) = (codeE hi.toNat).map fun k => k (decodeAc a) (decodeOperand c d) := by
  have hop : BitVec.extractLsb' (n := 16) 7 9 (hi ++ a ++ d) = hi :=
    (BitVec.extractLsb'_append_eq_of_le (by decide)).trans BitVec.extractLsb'_append_eq_left
  have hac1 : BitVec.extractLsb' (n := 16) 5 2 (hi ++ a ++ d) = a :=
    (BitVec.extractLsb'_append_eq_of_le (by decide)).trans BitVec.extractLsb'_append_eq_right
  have hdst : BitVec.extractLsb' (n := 16) 0 5 (hi ++ a ++ d) = d := BitVec.extractLsb'_append_eq_right
  have hw := BitVec.isLt (w := 16) (hi ++ a ++ d)
  have hnum := congrArg BitVec.toNat hop
  rw [toNat_extractLsb'] at hnum
  rw [decodeAssigned_formatE c (by omega), hop, hac1, hdst]

/-- The bits between AC1 and AC2 are looked at by nothing (R132). -/
theorem decodeAssigned_appendF {hi : BitVec 9} (a : BitVec 2) (x : BitVec 3) (b : BitVec 2) (h : hi.toNat / 16 = 1) :
    decodeAssigned c (hi ++ a ++ x ++ b) = (codeF hi.toNat).map fun k => k (decodeAc a) (decodeAc b) := by
  have hop : BitVec.extractLsb' (n := 16) 7 9 (hi ++ a ++ x ++ b) = hi :=
    (BitVec.extractLsb'_append_eq_of_le (by decide)).trans
      ((BitVec.extractLsb'_append_eq_of_le (by decide)).trans BitVec.extractLsb'_append_eq_left)
  have hac1 : BitVec.extractLsb' (n := 16) 5 2 (hi ++ a ++ x ++ b) = a :=
    (BitVec.extractLsb'_append_eq_of_le (by decide)).trans
      ((BitVec.extractLsb'_append_eq_of_le (by decide)).trans BitVec.extractLsb'_append_eq_right)
  have hac2 : BitVec.extractLsb' (n := 16) 0 2 (hi ++ a ++ x ++ b) = b := BitVec.extractLsb'_append_eq_right
  have hw := BitVec.isLt (w := 16) (hi ++ a ++ x ++ b)
  have hnum := congrArg BitVec.toNat hop
  rw [toNat_extractLsb'] at hnum
  rw [decodeAssigned_formatF c (by omega), hop, hac1, hac2]

end

/-! ### Don't-care bits (R132) -/

/-- The four instructions with a mask take bits 6-0 of their parameter. -/
theorem codeD_mask {op : BitVec 8} (hop : op ∈ [0x7A#8, 0x7B#8, 0x7C#8, 0x7D#8]) {p q : BitVec 8}
    (h : p.extractLsb' 0 7 = q.extractLsb' 0 7) : codeD p op.toNat = codeD q op.toNat := by
  simp only [List.mem_cons, List.not_mem_nil, or_false] at hop
  obtain rfl | rfl | rfl | rfl := hop <;> simp [codeD, h]

/-- CNM takes bits 3-0 of its parameter. -/
theorem codeD_level {p q : BitVec 8} (h : p.extractLsb' 0 4 = q.extractLsb' 0 4) : codeD p 0x7E = codeD q 0x7E := by
  simp [codeD, h]

/-- Settles O4: the fields that the formats read leave these bits out. -/
theorem dontCareBitsAreIgnored : Obligations.DontCareBitsAreIgnored := by
  refine fun c => ⟨fun op b k hop => decode_congr ?mask, fun x l => decode_congr ?level,
    fun sub a b x => decode_congr ?astrom⟩
  case mask =>
    have hpar : op.toNat / 16 % 8 = 7 := by
      revert hop
      exact (by decide : ∀ op ∈ [0x7A#8, 0x7B#8, 0x7C#8, 0x7D#8], op.toNat / 16 % 8 = 7) op
    have hword (y : BitVec 1) : (op ++ y ++ k : Word) = op ++ (y ++ k) := BitVec.append_assoc
    rw [hword, hword, decodeAssigned_appendD c _ hpar, decodeAssigned_appendD c _ hpar]
    exact codeD_mask hop (BitVec.extractLsb'_append_eq_right.trans BitVec.extractLsb'_append_eq_right.symm)
  case level =>
    have hword (y : BitVec 4) : (0x7E#8 ++ y ++ l : Word) = 0x7E#8 ++ (y ++ l) := BitVec.append_assoc
    rw [hword, hword, decodeAssigned_appendD c _ (by decide), decodeAssigned_appendD c _ (by decide)]
    exact codeD_level (BitVec.extractLsb'_append_eq_right.trans BitVec.extractLsb'_append_eq_right.symm)
  case astrom =>
    have hsub : (1#5 ++ sub).toNat / 16 = 1 := by
      revert sub
      decide
    rw [decodeAssigned_appendF c a x b hsub, decodeAssigned_appendF c a 0#3 b hsub]

/-! ### The round trip of operands (R113 to R115) -/

section
variable {c : Config}

theorem regCode_length (hc : c.wf = true) : c.regCode.length = 8 := by
  simp only [Config.wf, Bool.and_eq_true, decide_eq_true_eq] at hc
  obtain ⟨⟨⟨⟨⟨hlen, -⟩, -⟩, -⟩, -⟩, -⟩ := hc
  exact hlen

theorem modeCode_length (hc : c.wf = true) : c.modeCode.length = 4 := by
  simp only [Config.wf, Bool.and_eq_true, decide_eq_true_eq] at hc
  obtain ⟨⟨⟨⟨-, hlen⟩, -⟩, -⟩, -⟩ := hc
  exact hlen

/-- Every register has a code. -/
theorem mem_regCode (hc : c.wf = true) (r : OpReg) : r ∈ c.regCode := by
  simp only [Config.wf, Bool.and_eq_true, List.all_eq_true, decide_eq_true_eq] at hc
  obtain ⟨⟨⟨⟨⟨-, hall⟩, -⟩, -⟩, -⟩, -⟩ := hc
  refine hall r ?_
  cases r with
  | gen g => cases g <;> decide
  | sp => decide
  | pc => decide

/-- Every mode has a code. -/
theorem mem_modeCode (hc : c.wf = true) (m : AddrMode) : m ∈ c.modeCode := by
  simp only [Config.wf, Bool.and_eq_true, List.all_eq_true, decide_eq_true_eq] at hc
  obtain ⟨⟨⟨-, hall⟩, -⟩, -⟩ := hc
  refine hall m ?_
  cases m <;> decide

/-- Where a list has an element, its place is where the list gives it back. -/
theorem getD_idxOf {α : Type} [DecidableEq α] {l : List α} {a : α} (h : a ∈ l) (d : α) : l.getD (l.idxOf a) d = a := by
  have hlt := List.idxOf_lt_length_iff.2 h
  rw [List.getD_eq_getElem _ _ hlt, List.getElem_idxOf hlt]

theorem regOf_regBits (hc : c.wf = true) (r : OpReg) : c.regOf (c.regBits r) = r := by
  have hlt : c.regCode.idxOf r < 2 ^ 3 := (List.idxOf_lt_length_iff.2 (mem_regCode hc r)).trans_eq (regCode_length hc)
  rw [Config.regOf, Config.regBits, BitVec.toNat_ofNat, Nat.mod_eq_of_lt hlt, getD_idxOf (mem_regCode hc r)]

theorem modeOf_modeBits (hc : c.wf = true) (m : AddrMode) : c.modeOf (c.modeBits m) = m := by
  have hlt : c.modeCode.idxOf m < 2 ^ 2 :=
    (List.idxOf_lt_length_iff.2 (mem_modeCode hc m)).trans_eq (modeCode_length hc)
  rw [Config.modeOf, Config.modeBits, BitVec.toNat_ofNat, Nat.mod_eq_of_lt hlt, getD_idxOf (mem_modeCode hc m)]

theorem operandOf_parts (o : Operand) : operandOf o.parts.1 o.parts.2 = o := by
  cases o <;> rfl

theorem decodeOperand_encodeOperand (hc : c.wf = true) (o : Operand) : decodeOperand c (encodeOperand c o) = o := by
  have hreg : (encodeOperand c o).extractLsb' 0 3 = c.regBits o.parts.1 := BitVec.extractLsb'_append_eq_right
  have hmode : (encodeOperand c o).extractLsb' 3 2 = c.modeBits o.parts.2 := BitVec.extractLsb'_append_eq_left
  rw [decodeOperand, hreg, hmode, regOf_regBits hc, modeOf_modeBits hc, operandOf_parts]

end

theorem decodeAc_encodeAc (a : AcReg) : decodeAc (encodeAc a) = a := by
  cases a <;> rfl

/-! ### The round trip of each format

An operation code that the table of its format gives to an instruction decodes to that instruction. -/

section
variable {c : Config}

theorem decodeAssigned_formA (hc : c.wf = true) {hi : BitVec 6} {k : Operand → Operand → Instr} (f d : Operand)
    (h7 : hi.toNat / 4 % 8 ≠ 7) (h : 2 ≤ hi.toNat / 2 % 16) (hk : codeA hi.toNat = some k) :
    decodeAssigned c (formA c hi f d) = some (k f d) := by
  rw [formA, decodeAssigned_appendA c _ _ h7 h, hk, Option.map_some, decodeOperand_encodeOperand hc,
    decodeOperand_encodeOperand hc]

theorem decodeAssigned_formB (hc : c.wf = true) {hi : BitVec 11} {k : Operand → Instr} (d : Operand)
    (h : hi.toNat / 64 % 16 = 0) (h6 : hi.toNat % 64 ≠ 0) (hk : codeB hi.toNat = some k) :
    decodeAssigned c (formB c hi d) = some (k d) := by
  rw [formB, decodeAssigned_appendB c _ h h6, hk, Option.map_some, decodeOperand_encodeOperand hc]

/-- A word in the table of Formato C lies in its space and is no TRAPn. -/
theorem decodeAssigned_of_codeC {w : Word} {i : Instr} (hk : codeC w.toNat = some i) : decodeAssigned c w = some i := by
  have hmem : w.toNat ∈ wordsC := by
    by_contra hn
    exact Option.some_ne_none i (hk.symm.trans ((codeC_eq_none_iff _).2 hn))
  obtain ⟨hzero, htrap⟩ := space_of_mem_wordsC _ hmem
  rw [decodeAssigned_formatC c hzero, if_neg htrap, hk]

theorem decodeAssigned_formD {op p : BitVec 8} {i : Instr} (h : op.toNat / 16 % 8 = 7)
    (hk : codeD p op.toNat = some i) : decodeAssigned c (formD op p) = some i := by
  rw [formD, decodeAssigned_appendD c p h, hk]

/-- The mask of ERC, CFO, CFZ and CCC, encoded with bit 7 = 0 (R132). -/
theorem decodeAssigned_formD_mask {op : BitVec 8} {k : BitVec 7 → Instr} (mask : BitVec 7) (h : op.toNat / 16 % 8 = 7)
    (hk : ∀ p, codeD p op.toNat = some (k (p.extractLsb' 0 7))) :
    decodeAssigned c (formD op ((0 : BitVec 1) ++ mask)) = some (k mask) := by
  rw [decodeAssigned_formD h (hk _), BitVec.extractLsb'_append_eq_right]

/-- The level of CNM, encoded with bits 7-4 = 0 (R132). -/
theorem decodeAssigned_formD_level {op : BitVec 8} {k : BitVec 4 → Instr} (level : BitVec 4)
    (h : op.toNat / 16 % 8 = 7) (hk : ∀ p, codeD p op.toNat = some (k (p.extractLsb' 0 4))) :
    decodeAssigned c (formD op ((0 : BitVec 4) ++ level)) = some (k level) := by
  rw [decodeAssigned_formD h (hk _), BitVec.extractLsb'_append_eq_right]

theorem decodeAssigned_formE (hc : c.wf = true) {hi : BitVec 9} {k : AcReg → Operand → Instr} (a : AcReg) (p : Operand)
    (h : hi.toNat / 16 = 17) (hk : codeE hi.toNat = some k) : decodeAssigned c (formE c hi a p) = some (k a p) := by
  rw [formE, decodeAssigned_appendE c _ _ h, hk, Option.map_some, decodeAc_encodeAc, decodeOperand_encodeOperand hc]

theorem decodeAssigned_formF {hi : BitVec 9} {k : AcReg → AcReg → Instr} (a b : AcReg) (h : hi.toNat / 16 = 1)
    (hk : codeF hi.toNat = some k) : decodeAssigned c (formF hi a b) = some (k a b) := by
  rw [formF, decodeAssigned_appendF c _ _ _ h, hk, Option.map_some, decodeAc_encodeAc, decodeAc_encodeAc]

end

/-! ### The round trip of instructions -/

/-- Every instruction stands in the table of its format under the operation code it is encoded with; a mask and a level
are the low bits of their parameter. -/
theorem decodeAssigned_encode {c : Config} (hc : c.wf = true) (i : Instr) :
    decodeAssigned c (encode c i) = some i.canonical := by
  cases i with
  | add | addb | dac | dacb | sub | subb | dsb | dsbb | cmp | cmpb | and | andb | or | orb | msk | mskb | xor | xorb
  | xnr | xnrb | coc | cocb | czc | czcb | mov | movb | exc | excb | djz | jsb =>
    exact decodeAssigned_formA hc _ _ (by decide) (by decide) rfl
  | neg | negb | inc | incb | dcr | dcrb | ict | ictb | dct | dctb | cmt | cmtb | stz | stzb | sto | stob | abs | absb
  | adc | adcb | sb | sbb | cpz | cpzb | sxt | sxtb | sldl | sdcl | rdcl | sadl | rtdl | sld | sldb | sdc | sdcb | rdc
  | rdcb | sad | sadb | rtd | rtdb | slel | secl | recl | rtel | sle | sleb | sec | secb | recw | recb | rte | rteb
  | swb | ret | jmp | slp | clp | smk | cmk | dmi | mki | csps | ssps | sfgmb =>
    exact decodeAssigned_formB hc _ (by decide) (by decide) rfl
  | halt | wait | nop | rst | exs | rtt | rti | btp | srg | crg =>
    exact decodeAssigned_of_codeC rfl
  | trapn n => exact decodeAssigned_appendTrap c n
  | dr | dco | dcz | dvo | dvz | dzo | dzz | dso | dsz | dtao | dtaz | dtbo | dtbz | dtco | dtcz | dge | dlt | dgt | dle
  | dhi | dls | dhs | dlo => exact decodeAssigned_formD (by decide) rfl
  | erc | cfo | cfz | ccc => exact decodeAssigned_formD_mask _ (by decide) fun _ => rfl
  | cnm l => exact decodeAssigned_formD_level l (by decide) fun _ => rfl
  | pfip | ipfp | smpfp | smip | supfp | suip | mlpfp | mlip | dvpfp | dvip | ngpfp | cmpfp | crpf | cri | azpf | azi =>
    exact decodeAssigned_formE hc _ _ (by decide) rfl
  | pfim | ipfm | smpfm | smim | supfm | suim | mlpfm | mlim | dvpfm | dvim | ngpfm | cmpfm | abpf | absi | ngin
  | cprgi => exact decodeAssigned_formF _ _ (by decide) rfl

/-- A second mnemonic is as well formed as its core instruction (log 31). -/
theorem canonical_wf (c : Config) (i : Instr) : i.canonical.wf c = i.wf c := by
  unfold Instr.canonical
  split <;> rfl

/-- Settles O1: the word of an instruction is assigned to its core instruction, which the two restrictions of R130 and
R131 pass. -/
theorem decodeOfEncode : Obligations.DecodeOfEncode := by
  intro c i hc hi
  have hwf : i.canonical.wf c = true := (canonical_wf c i).trans hi
  simp only [Instr.wf, Bool.and_eq_true] at hwf
  obtain ⟨hver, hlong⟩ := hwf
  exact decode_of_longOk (decodeAssigned_encode hc i) hver hlong

/-- Settles O5: the decoder is evaluated on each word. -/
theorem someWordsDecode : Obligations.SomeWordsDecode := by
  unfold Obligations.SomeWordsDecode
  decide

end Sys2Proof
end

/-! SUPPORT. Operands (40_addressing_modes.md): where each mode locates, what the register-direct forms do, what an
access that raises a trap leaves, and the obligations about them. -/

namespace Sys2Proof.Machine

/-! ### Sequences that go on and sequences that are abandoned -/

section
variable {α β : Type} {x : M α} {f : α → M β} {s t : State} {a : α} {e : Abort}

theorem bind_of_ok (h : x s = .ok a t) : (x >>= f) s = f a t := by
  rw [bind_apply, h]

theorem bind_of_error (h : x s = .error e t) : (x >>= f) s = .error e t := by
  rw [bind_apply, h]

theorem get_bind_apply (g : State → M β) (s : State) : (get >>= g) s = g s s := rfl

end

/-! ### The twelve modes (R151 to R163, R166) -/

/-- The pointer of an indirect mode, read as a word. -/
def readPointer (a : Word) : M Loc := do
  let p ← memRead true a
  return .mem p

section
variable {s t : State} {d : Word}

theorem locate_indexedIndirect (r : GReg) (h : fetch16 s = .ok d t) :
    locate (.indexedIndirect r) s = readPointer (t.getG r + d) t := bind_of_ok h

theorem locate_relativeIndirect (h : fetch16 s = .ok d t) :
    locate .relativeIndirect s = readPointer (s.pc + relBias s.cfg + d) t := bind_of_ok h

end

/-- The modes with an extension word begin with its fetch. -/
theorem locate_of_fetch_error {s t : State} {e : Abort} (h : fetch16 s = .error e t) {r : GReg} {o : Operand}
    (ho : o ∈ [Operand.indexed r, .indexedIndirect r, .absolute, .relative, .relativeIndirect]) :
    locate o s = .error e t := by
  simp only [List.mem_cons, List.not_mem_nil, or_false] at ho
  obtain rfl | rfl | rfl | rfl | rfl := ho
  case inr.inr.inr.inl => exact (get_bind_apply ..).trans (bind_of_error h)
  case inr.inr.inr.inr => exact (get_bind_apply ..).trans (bind_of_error h)
  all_goals exact bind_of_error h

theorem pairOf_eq_none {o : Operand} (h : o ∉ [Operand.direct .ra, .direct .rc, .direct .re]) : pairOf o = none := by
  cases o with
  | direct r =>
    cases r with
    | rb | rd | rf => rfl
    | ra | rc | re => exact absurd (by decide) h
  | _ => rfl

theorem locateLong_of_none {o : Operand} (h : pairOf o = none) (s : State) :
    locateLong o s = .error (.trap .invalidOpcode) s := by
  unfold locateLong
  rw [h]
  rfl

/-- Settles O15, mode by mode: an indirect mode reads its pointer after its extension word. -/
theorem locateModes : Obligations.LocateModes := by
  intro s r
  refine ⟨rfl, rfl, rfl, rfl, rfl, rfl, rfl,
    fun d t hd => ⟨bind_of_ok hd, bind_of_ok hd, bind_of_ok hd, ?_, ?_, ?_, ?_⟩,
    fun e t he o ho => locate_of_fetch_error he ho, fun o ho => locateLong_of_none (pairOf_eq_none ho) s⟩
  · exact fun p u hp => (locate_indexedIndirect r hd).trans (bind_of_ok hp)
  · exact fun e u he => (locate_indexedIndirect r hd).trans (bind_of_error he)
  · exact fun p u hp => (locate_relativeIndirect hd).trans (bind_of_ok hp)
  · exact fun e u he => (locate_relativeIndirect hd).trans (bind_of_error he)

/-! ### The instructions of the other lists are of their shape -/

theorem exec_wordCompare {q} (hq : q ∈ wordCompare) (f d : Operand) (s : State) :
    exec (q.1 f d) s = runM (twoReadOnly 16 q.2 f d) s := by
  fin_cases hq <;> rfl

theorem exec_byteCompare {q} (hq : q ∈ byteCompare) (f d : Operand) (s : State) :
    exec (q.1 f d) s = runM (twoReadOnly 8 q.2 f d) s := by
  fin_cases hq <;> rfl

theorem exec_longShifts {q} (hq : q ∈ longShifts) (d : Operand) (s : State) :
    exec (q.1 d) s = runM (longShift q.2 d) s := by
  fin_cases hq <;> rfl

theorem exec_astromIntP {q} (hq : q ∈ astromIntP) (a : AcReg) (p : Operand) (s : State) :
    exec (q.1 a p) s = runM (astromOp (wordSource p) (intOp q.2) true a) s := by
  fin_cases hq <;> rfl

theorem exec_astromFloatP {q} (hq : q ∈ astromFloatP) (a : AcReg) (p : Operand) (s : State) :
    exec (q.1 a p) s = runM (astromOp (longSource p) q.2.2 q.2.1 a) s := by
  fin_cases hq <;> rfl

/-! ### Register-direct operands (R152)

Each shape on general registers, at either size: `setWidth n` is what is read of a register, `mergeLow` what is written
to it. -/

theorem setWidth_byte (w : Word) : w.setWidth 8 = w.extractLsb' 0 8 := BitVec.setWidth_eq_extractLsb' (by decide)

/-- A word is its two bytes. -/
theorem extractLsb'_append_bytes (w : Word) : w.extractLsb' 8 8 ++ w.extractLsb' 0 8 = w :=
  (BitVec.extractLsb'_append_extractLsb'_eq_extractLsb' rfl).trans BitVec.extractLsb'_eq_self

theorem setG_getG_self (s : State) (r : GReg) : s.setG r (s.getG r) = s := by cases r <;> rfl

section
variable (n : Nat) (s : State) (a b : GReg)

theorem twoReadWrite_direct (op : BitVec n → BitVec n → Word → BitVec n × Word) :
    twoReadWrite n op (.direct a) (.direct b) s = .ok ()
      ((s.setG b (mergeLow (s.getG b) (op ((s.getG a).setWidth n) ((s.getG b).setWidth n) s.psw).1)).setPsw
        (op ((s.getG a).setWidth n) ((s.getG b).setWidth n) s.psw).2) := rfl

theorem twoReadOnly_direct (op : BitVec n → BitVec n → Word → BitVec n × Word) :
    twoReadOnly n op (.direct a) (.direct b) s = .ok ()
      (s.setPsw (op ((s.getG a).setWidth n) ((s.getG b).setWidth n) s.psw).2) := rfl

theorem moveOp_direct : moveOp n (.direct a) (.direct b) s = .ok ()
    ((s.setG b (mergeLow (s.getG b) ((s.getG a).setWidth n))).setPsw
      (logicResult ((s.getG a).setWidth n) s.psw).2) := by
  show EStateM.Result.ok () (State.setPsw _ (logicResult _ (State.setG _ _ _).psw).2) = _
  rw [setG_psw]

/-- The second write of EXC finds what the first one left, which matters where both operands are one register. -/
theorem exchangeOp_direct : exchangeOp n (.direct a) (.direct b) s = .ok ()
    (((s.setG a (mergeLow (s.getG a) ((s.getG b).setWidth n))).setG b
      (mergeLow ((s.setG a (mergeLow (s.getG a) ((s.getG b).setWidth n))).getG b) ((s.getG a).setWidth n))).setPsw
        (logicResult ((s.getG a).setWidth n) s.psw).2) := by
  show EStateM.Result.ok () (State.setPsw _ (logicResult _ (State.setG _ _ _).psw).2) = _
  rw [setG_psw, setG_psw]

theorem oneReadWrite_direct (op : BitVec n → Word → BitVec n × Word) :
    oneReadWrite n op (.direct b) s = .ok ()
      ((s.setG b (mergeLow (s.getG b) (op ((s.getG b).setWidth n) s.psw).1)).setPsw
        (op ((s.getG b).setWidth n) s.psw).2) := rfl

theorem oneReadOnly_direct (op : BitVec n → Word → BitVec n × Word) :
    oneReadOnly n op (.direct b) s = .ok () (s.setPsw (op ((s.getG b).setWidth n) s.psw).2) := rfl

theorem oneWriteOnly_direct (op : Word → BitVec n × Word) :
    oneWriteOnly n op (.direct b) s = .ok () ((s.setG b (mergeLow (s.getG b) (op s.psw).1)).setPsw (op s.psw).2) := rfl

/-- ABS writes a negative operand only; the others are their own absolute value (R239). -/
theorem oneWriteNegative_direct (hself : mergeLow (s.getG b) ((s.getG b).setWidth n) = s.getG b) :
    oneWriteNegative n aluAbs (.direct b) s = .ok ()
      ((s.setG b (mergeLow (s.getG b) (aluAbs ((s.getG b).setWidth n) s.psw).1)).setPsw
        (aluAbs ((s.getG b).setWidth n) s.psw).2) := by
  show (doIf ((s.getG b).setWidth n).msb _ >>= fun _ => setFlags (aluAbs ((s.getG b).setWidth n) s.psw).2) s = _
  rw [bind_apply, doIf_apply]
  cases hneg : ((s.getG b).setWidth n).msb with
  | true => rfl
  | false =>
    have habs : (aluAbs ((s.getG b).setWidth n) s.psw).1 = (s.getG b).setWidth n := by simp [aluAbs, hneg]
    rw [habs, hself, setG_getG_self]
    rfl

end

/-- Two byte writes to registers, the second into what the first one left. -/
theorem setG_mergeLow_byte (s : State) (a b : GReg) (x y : Byte) :
    (s.setG a (mergeLow (s.getG a) x)).setG b (mergeLow ((s.setG a (mergeLow (s.getG a) x)).getG b) y) =
    (s.setG a (mergeLow (s.getG a) x)).setG b (mergeLow (s.getG b) y) := by
  by_cases hab : b = a
  · rw [hab, setG_getG_same, mergeLow_byte _ y, mergeLow_byte_high, ← mergeLow_byte]
  · rw [setG_getG_other s a b _ hab]

theorem djzOp_direct (s : State) (a b : GReg) :
    djzOp (.direct a) (.direct b) s = .ok () { s.setG a (s.getG a - 1) with
      psw := withCVZS s.psw (pswC s.psw) (decide (s.getG a = 0x8000)) (decide (s.getG a = 1)) (s.getG a - 1).msb
      pc := if s.getG a = 1 then s.pc else s.getG b &&& 0xFFFE } := by
  have hzero : (s.getG a - 1 == 0) = decide (s.getG a = 1) := decide_eq_decide.2 sub_eq_zero
  have hpsw : (aluDjz (s.getG a) s.psw).2 =
      withCVZS s.psw (pswC s.psw) (decide (s.getG a = 0x8000)) (decide (s.getG a = 1)) (s.getG a - 1).msb := by
    rw [← hzero]; rfl
  show (doIf (s.getG a - 1 != 0) (modify fun t => t.setPc ((s.getG b).setWidth 16)))
    ((s.setG a (mergeLow (s.getG a) (s.getG a - 1))).setPsw (aluDjz (s.getG a) s.psw).2) = _
  rw [doIf_apply, bne, hzero, mergeLow_word, BitVec.setWidth_eq, hpsw]
  by_cases hone : s.getG a = 1
  · simp [hone, State.setPsw]
  · simp only [hone, State.setPsw]; rfl

theorem longShift_of_pair {d : Operand} {p : Pair} (h : pairOf d = some p) (sh : ShiftRule 32) (s : State) :
    longShift sh d s = .ok () ((s.setPair p (aluLongShift sh (s.getPair p) s.psw).1).setPsw
        (aluLongShift sh (s.getPair p) s.psw).2) := by
  unfold longShift locateLong
  rw [h]
  rfl

/-- Settles O28, shape by shape: a word form replaces the register, a byte form its bits 7-0. -/
theorem registerFormsComplete : Obligations.RegisterFormsComplete := by
  intro s a b
  refine ⟨?wordTwo, ?byteTwo, ?wordCompare, ?byteCompare, ?mov, ?movb, ?exc, ?excb, runM_ok (djzOp_direct s a b),
    ?wordOne, ?byteOne, ?wordStore, ?byteStore, ?cpz, ?cpzb, ?abs, ?absb, ?long⟩
  case wordTwo =>
    intro q hq
    rw [exec_wordTwo hq, runM_ok (twoReadWrite_direct ..), mergeLow_word, BitVec.setWidth_eq, BitVec.setWidth_eq]
  case byteTwo =>
    intro q hq
    rw [exec_byteTwo hq, runM_ok (twoReadWrite_direct ..), mergeLow_byte, setWidth_byte, setWidth_byte]
  case wordCompare =>
    intro q hq
    rw [exec_wordCompare hq, runM_ok (twoReadOnly_direct ..), BitVec.setWidth_eq, BitVec.setWidth_eq]
  case byteCompare =>
    intro q hq
    rw [exec_byteCompare hq, runM_ok (twoReadOnly_direct ..), setWidth_byte, setWidth_byte]
  case mov =>
    refine (runM_ok (moveOp_direct 16 s a b)).trans ?_
    rw [mergeLow_word, BitVec.setWidth_eq]; rfl
  case movb =>
    refine (runM_ok (moveOp_direct 8 s a b)).trans ?_
    rw [mergeLow_byte, setWidth_byte]; rfl
  case exc =>
    refine (runM_ok (exchangeOp_direct 16 s a b)).trans ?_
    rw [mergeLow_word, mergeLow_word, BitVec.setWidth_eq, BitVec.setWidth_eq]; rfl
  case excb =>
    refine (runM_ok (exchangeOp_direct 8 s a b)).trans ?_
    rw [setG_mergeLow_byte, mergeLow_byte, mergeLow_byte, setWidth_byte, setWidth_byte]; rfl
  case wordOne =>
    intro q hq
    rw [exec_wordOne hq, runM_ok (oneReadWrite_direct ..), mergeLow_word, BitVec.setWidth_eq]
  case byteOne =>
    intro q hq
    rw [exec_byteOne hq, runM_ok (oneReadWrite_direct ..), mergeLow_byte, setWidth_byte]
  case wordStore =>
    intro q hq
    rw [exec_wordStore hq, runM_ok (oneWriteOnly_direct ..), mergeLow_word]
  case byteStore =>
    intro q hq
    rw [exec_byteStore hq, runM_ok (oneWriteOnly_direct ..), mergeLow_byte]
  case cpz =>
    refine (runM_ok (oneReadOnly_direct 16 s b aluCpz)).trans ?_
    rw [BitVec.setWidth_eq]; rfl
  case cpzb =>
    refine (runM_ok (oneReadOnly_direct 8 s b aluCpz)).trans ?_
    rw [setWidth_byte]; rfl
  case abs =>
    have hself : mergeLow (s.getG b) ((s.getG b).setWidth 16) = s.getG b := by rw [mergeLow_word, BitVec.setWidth_eq]
    refine (runM_ok (oneWriteNegative_direct 16 s b hself)).trans ?_
    rw [mergeLow_word, BitVec.setWidth_eq]
  case absb =>
    have hself : mergeLow (s.getG b) ((s.getG b).setWidth 8) = s.getG b := by
      rw [mergeLow_byte, setWidth_byte, extractLsb'_append_bytes]
    refine (runM_ok (oneWriteNegative_direct 8 s b hself)).trans ?_
    rw [mergeLow_byte, setWidth_byte]
  case long =>
    intro q hq o p ho
    rw [exec_longShifts hq, runM_ok (longShift_of_pair ho q.2 s)]

/-! ### Even words -/

/-- The mask of SP, SPS and PC leaves an even word (00_scope.md R11). -/
theorem mask_of_even {v : Word} (h : v.getLsbD 0 = false) : v &&& 0xFFFE = v := by
  refine BitVec.eq_of_getLsbD_eq fun k _ => ?_
  rw [getLsbD_and_mask (b := 0) (by decide)]
  cases k with
  | zero => rw [h]; rfl
  | succ k => simp

theorem getLsbD_zero_eq_false_iff (v : Word) : v.getLsbD 0 = false ↔ v.toNat % 2 = 0 := by
  simp [BitVec.getLsbD]

theorem even_sub_two {v : Word} (h : v.getLsbD 0 = false) : (v - 2).getLsbD 0 = false := by
  rw [getLsbD_zero_eq_false_iff] at *
  bv_omega

theorem even_add_two {v : Word} (h : v.getLsbD 0 = false) : (v + 2).getLsbD 0 = false := by
  rw [getLsbD_zero_eq_false_iff] at *
  bv_omega

theorem sub_two_sub_two (v : Word) : v - 2 - 2 = v - 4 := by bv_omega

/-! ### An entry with room (60_exceptions.md R450) -/

/-- Nothing that disturbs the bus is in the fields an access or a register write changes. -/
theorem State.calm.congr {s t : State} (hc : s.calm) (hadmp : t.admp = s.admp) (hstale : t.stale = s.stale)
    (hcfg : t.cfg = s.cfg) : t.calm where
  no_admp := hadmp ▸ hc.no_admp
  no_stale := hstale ▸ hc.no_stale
  no_silent_read := hcfg ▸ hc.no_silent_read
  no_silent_write := hcfg ▸ hc.no_silent_write
  no_parity := hcfg ▸ hc.no_parity

/-- The state after a push on the system stack. -/
def State.pushedSystem (s : State) (own : Bool) (v : Word) : State :=
  (s.setSps (s.sps - 2)).store own true (s.sps - 2) v

theorem pushedSystem_sps {s : State} (heven : s.sps.getLsbD 0 = false) (own : Bool) (v : Word) :
    (s.pushedSystem own v).sps = s.sps - 2 := mask_of_even (even_sub_two heven)

theorem pushedSystem_mem (s : State) (own : Bool) (v : Word) :
    (s.pushedSystem own v).mem = s.mem.write true (s.sps - 2) v := rfl

theorem State.calm.pushedSystem {s : State} (hc : s.calm) (own : Bool) (v : Word) : (s.pushedSystem own v).calm :=
  hc.congr rfl rfl rfl

/-- A push on the system stack inside the limits. -/
theorem pushSystem_ram {s : State} {own : Bool} {v : Word} (hc : s.calm) (heven : s.sps.getLsbD 0 = false)
    (htop : (s.sps - 2).toNat ≤ 0xF7FF) (hlp : s.lp.toNat ≤ (s.sps - 2).toNat) (hram : s.ramAt (s.sps - 2) = true) :
    pushSystem own v s = .ok () (s.pushedSystem own v) := by
  have heven2 := even_sub_two heven
  have hin : (s.setSps (s.sps - 2)).outsideStack (s.sps - 2) = false := outsideStack_eq_false htop hlp
  rw [pushSystem_apply, setSps_sps, mask_of_even heven2, sstackWrite_inside hin heven2]
  exact haltOnTrap_ok (busWrite_ram (hc.congr rfl rfl rfl) hram)

/-- A word of the vector area is read as it is (20_memory.md R78, R95). -/
theorem vecRead_memory {s : State} {vec : Word} (hc : s.calm) (hhigh : 0xF800 ≤ vec.toNat)
    (heven : vec.getLsbD 0 = false) (hm : s.memoryAt vec = true) : vecRead vec s = .ok (s.mem.read true vec) s := by
  have hreloc : s.reloc vec = vec := by
    unfold State.reloc
    split
    · rfl
    · exact relocate_of_ge hhigh
  have hmem := memRead_even (s := s) (wide := true) (a := vec) heven
  rw [hreloc, busRead_memory hc hm] at hmem
  exact hmem

/-- A word is not changed by a write to an even address below it. -/
theorem read_write_below {m : Memory} {a b v : Word} (heven : a.getLsbD 0 = false) (ha : a.toNat + 1 < b.toNat)
    (hb : b.toNat < 0xFFFF) : (m.write true a v).read true b = m.read true b := by
  have hsucc := toNat_succ_of_even heven
  have hother : ∀ c, b.toNat ≤ c → (m.write true a v).readByte c = m.readByte c := fun c hc =>
    readByte_write_other (not_mem_accessBytes_word.2 ⟨by omega, by omega⟩) m v
  rw [read_word, read_word, hother _ le_rfl, hother _ (by bv_omega)]

/-- The state after the two pushes of an entry, which are no store of the program (log 7). -/
def State.entryPushed (s : State) (savedPc : Word) : State :=
  (s.pushedSystem false savedPc).pushedSystem false s.psw

section
variable {s : State} {vec : Word} (h : s.entryRoom vec) (savedPc : Word)
include h

theorem entryPushed_sps : (s.entryPushed savedPc).sps = s.sps - 4 := by
  have hsps := pushedSystem_sps h.sps_even false savedPc
  have heven : (s.pushedSystem false savedPc).sps.getLsbD 0 = false := hsps ▸ even_sub_two h.sps_even
  rw [State.entryPushed, pushedSystem_sps heven, hsps, sub_two_sub_two]

theorem entryPushed_mem : (s.entryPushed savedPc).mem =
    (s.mem.write true (s.sps - 2) savedPc).write true (s.sps - 4) s.psw := by
  rw [State.entryPushed, pushedSystem_mem, pushedSystem_mem, pushedSystem_sps h.sps_even, sub_two_sub_two]

theorem pushPc_room : pushSystem false savedPc s = .ok () (s.pushedSystem false savedPc) := by
  have hfour := h.sps_four
  have htop := h.sps_top
  have hlp := h.above_lp
  exact pushSystem_ram h.calm h.sps_even (by bv_omega) (by bv_omega) h.ram_pc

theorem pushPsw_room : pushSystem false s.psw (s.pushedSystem false savedPc) = .ok () (s.entryPushed savedPc) := by
  have hfour := h.sps_four
  have htop := h.sps_top
  have hlp := h.above_lp
  refine pushSystem_ram (h.calm.pushedSystem _ _) ?_ ?_ ?_ ?_ <;> rw [pushedSystem_sps h.sps_even]
  · exact even_sub_two h.sps_even
  · bv_omega
  · show s.lp.toNat ≤ _
    bv_omega
  · rw [sub_two_sub_two]
    exact h.ram_psw

/-- The pushes of an entry lie below the vectors (20_memory.md R77, R81). -/
theorem entryPushed_vector {b : Word} (hb : 0xF800 ≤ b.toNat) (hlast : b.toNat < 0xFFFF) :
    (s.entryPushed savedPc).mem.read true b = s.mem.read true b := by
  have hfour := h.sps_four
  have htop := h.sps_top
  have heven := even_sub_two h.sps_even
  rw [entryPushed_mem h, read_write_below (sub_two_sub_two s.sps ▸ even_sub_two heven) (by bv_omega) hlast,
    read_write_below heven (by bv_omega) hlast]

/-- With room for it an entry is taken as 60_exceptions.md R450 has it. -/
theorem trapEntry_room : trapEntry savedPc vec s = .ok () (entryState savedPc vec s) := by
  have hhigh := h.vec_high
  have hlast := h.vec_last
  have hcalm : (s.entryPushed savedPc).calm := (h.calm.pushedSystem _ _).pushedSystem _ _
  have hp := vecRead_memory hcalm hhigh h.vec_even h.vec_psw
  have hq := vecRead_memory hcalm (vec := vec + 2) (by bv_omega) (even_add_two h.vec_even) h.vec_pc
  rw [entryPushed_vector h savedPc (by bv_omega) (by bv_omega)] at hp hq
  have hpsw : (s.pushedSystem false savedPc).psw = s.psw := rfl
  rw [trapEntry_eq, bind_of_ok (pushPc_room h savedPc), get_bind_apply, hpsw, bind_of_ok (pushPsw_room h savedPc),
    loadVector, bind_of_ok hp, bind_of_ok hq, modify_apply, entryState, ← entryPushed_mem h,
    ← entryPushed_sps h savedPc]
  obtain ⟨sps, mem, hsame⟩ : ∃ sps mem, s.entryPushed savedPc = { s with sps := sps, mem := mem } := ⟨_, _, rfl⟩
  rw [hsame]
  rfl

end

/-- A trap with room for its entry clears `bp_armed` and enters (60_exceptions.md R469). -/
theorem raiseInInstr_room {s : State} {e : Trap} (h : s.entryRoom (trapVector e))
    (hopen : (isAccessFault e && decide (e ∈ s.cfg.trapPcOpen)) = false) :
    raiseInInstr e s = .next (entryState s.pc (trapVector e) { s with bpArmed := false }) := by
  have hroom : State.entryRoom { s with bpArmed := false } (trapVector e) := { h with calm := { h.calm with } }
  have hentry := trapEntry_room hroom s.pc
  rw [raiseInInstr, hopen, if_neg Bool.false_ne_true, show entryFuel = 16383 + 1 from rfl, raiseTrap, hentry]

/-! ### The frames of SRG and CRG (45_zero_operand.md R329, R330) -/

/-- A push on the program stack, by the check of its address. -/
theorem pushProgram_apply (v : Word) {s : State} (heven : s.sp.getLsbD 0 = false) :
    pushProgram v s = pstackWrite true (s.sp - 2) v (s.setSp (s.sp - 2)) := by
  show pstackWrite true ((s.sp - 2) &&& 0xFFFE) v (s.setSp (s.sp - 2)) = _
  rw [mask_of_even (even_sub_two heven)]

theorem outsideStack_eq_true {s : State} {a : Word} (h : a.toNat < s.lp.toNat ∨ 0xF7FF < a.toNat) :
    s.outsideStack a = true := by
  simp only [State.outsideStack, Bool.or_eq_true, decide_eq_true_eq]
  exact h.symm

/-- The state after a push on the program stack. -/
def State.pushed (s : State) (v : Word) : State := (s.setSp (s.sp - 2)).store true true (s.sp - 2) v

theorem pushed_sp {s : State} (heven : s.sp.getLsbD 0 = false) (v : Word) : (s.pushed v).sp = s.sp - 2 :=
  mask_of_even (even_sub_two heven)

theorem pushed_mem (s : State) (v : Word) : (s.pushed v).mem = s.mem.write true (s.sp - 2) v := rfl

theorem pushProgram_ram (v : Word) {s : State} (hc : s.calm) (heven : s.sp.getLsbD 0 = false)
    (hlp : s.lp.toNat ≤ (s.sp - 2).toNat) (htop : (s.sp - 2).toNat ≤ 0xF7FF) (hram : s.ramAt (s.sp - 2) = true) :
    pushProgram v s = .ok () (s.pushed v) := by
  have hin : (s.setSp (s.sp - 2)).outsideStack (s.sp - 2) = false := outsideStack_eq_false htop hlp
  rw [pushProgram_apply v heven, pstackWrite_inside hin]
  exact busWrite_ram (hc.congr rfl rfl rfl) hram

theorem pushProgram_limit (v : Word) {s : State} (heven : s.sp.getLsbD 0 = false)
    (hout : (s.sp - 2).toNat < s.lp.toNat ∨ 0xF7FF < (s.sp - 2).toNat) :
    pushProgram v s = .error (.trap .stackLimit) (s.setSp (s.sp - 2)) := by
  rw [pushProgram_apply v heven]
  exact raiseIf_bind_true (outsideStack_eq_true hout)

/-- Where push number `j` goes that begins with SP at `sp`. -/
def pushSlot (sp : Word) (j : Nat) : Word := sp - 2 - 2 * BitVec.ofNat 16 j

theorem pushSlot_zero (sp : Word) : pushSlot sp 0 = sp - 2 := by simp [pushSlot]

theorem pushSlot_succ (sp : Word) (j : Nat) : pushSlot sp (j + 1) = pushSlot (sp - 2) j := by
  unfold pushSlot
  bv_omega

/-- Words pushed one after the other. -/
def pushAll : List Word → M Unit
  | [] => pure ()
  | v :: vs => pushProgram v >>= fun _ => pushAll vs

theorem saveRegisters_apply (s : State) : saveRegisters s = pushAll [s.rf, s.re, s.rd, s.rc, s.rb, s.ra] s := by
  simp only [pushAll, bind_pure_unit]
  rfl

/-- The first `k` pushes from this state are inside the limits and go to RAM, the next one is outside. -/
structure PushesUntil (k : Nat) (s : State) : Prop where
  calm : s.calm
  mem_wf : s.mem.wf = true
  sp_even : s.sp.getLsbD 0 = false
  inside : ∀ j, j < k → s.lp.toNat ≤ (pushSlot s.sp j).toNat ∧ (pushSlot s.sp j).toNat ≤ 0xF7FF ∧
    s.ramAt (pushSlot s.sp j) = true
  outside : (pushSlot s.sp k).toNat < s.lp.toNat ∨ 0xF7FF < (pushSlot s.sp k).toNat

/-- What `k` pushes of `vs` leave, and the push after them, which is outside the limits. -/
structure Pushed (vs : List Word) (k : Nat) (s u : State) : Prop where
  sp : u.sp = pushSlot s.sp k
  word : ∀ j, j < k → u.mem.read true (pushSlot s.sp j) = vs.getD j 0
  byte : ∀ b, (∀ j, j < k → b ≠ (pushSlot s.sp j).toNat ∧ b ≠ (pushSlot s.sp j).toNat + 1) →
    u.mem.readByte b = s.mem.readByte b
  same : u = { s with sp := u.sp, mem := u.mem, stored := u.stored }

theorem PushesUntil.pushed {k : Nat} {s : State} (h : PushesUntil (k + 1) s) (v : Word) :
    PushesUntil k (s.pushed v) := by
  have hsp := pushed_sp h.sp_even v
  refine ⟨h.calm.congr rfl rfl rfl, pushed_mem s v ▸ wf_write h.mem_wf, hsp ▸ even_sub_two h.sp_even,
    fun j hj => ?_, ?_⟩
  · rw [hsp, ← pushSlot_succ]
    exact h.inside (j + 1) (by omega)
  · rw [hsp, ← pushSlot_succ]
    exact h.outside

/-- A word stored reads back. -/
theorem read_write_same {m : Memory} (hm : m.wf = true) (a v : Word) : (m.write true a v).read true a = v := by
  rw [read_word, readByte_write_high hm, readByte_write_low hm, extractLsb'_append_bytes]

/-- The pushes go down word by word, so those to come are apart from the first. -/
theorem pushSlot_apart (sp : Word) {j : Nat} (hj : j < 6) :
    (sp - 2).toNat ≠ (pushSlot (sp - 2) j).toNat ∧ (sp - 2).toNat ≠ (pushSlot (sp - 2) j).toNat + 1 ∧
    (sp - 2).toNat + 1 ≠ (pushSlot (sp - 2) j).toNat := by
  unfold pushSlot
  bv_omega

theorem Pushed.cons {v : Word} {vs : List Word} {k : Nat} {s u : State} (heven : s.sp.getLsbD 0 = false)
    (hwf : s.mem.wf = true) (hk : k < 6) (h : Pushed vs k (s.pushed v) u) : Pushed (v :: vs) (k + 1) s u := by
  obtain ⟨hsp, hword, hbyte, hsame⟩ := h
  rw [pushed_sp heven] at hsp hword hbyte
  have hsucc := toNat_succ_of_even (even_sub_two heven)
  refine ⟨hsp.trans (pushSlot_succ ..).symm, fun j hj => ?_, fun b hb => ?_, hsame.trans rfl⟩
  · cases j with
    | zero =>
      have hlow : u.mem.readByte (s.sp - 2).toNat = (s.pushed v).mem.readByte (s.sp - 2).toNat :=
        hbyte _ fun j hj => by have := pushSlot_apart s.sp (j := j) (by omega); omega
      have hhigh : u.mem.readByte ((s.sp - 2).toNat + 1) = (s.pushed v).mem.readByte ((s.sp - 2).toNat + 1) :=
        hbyte _ fun j hj => by have := pushSlot_apart s.sp (j := j) (by omega); omega
      rw [pushSlot_zero, read_word, hsucc, hlow, hhigh, ← hsucc, ← read_word, pushed_mem, read_write_same hwf]
      rfl
    | succ j =>
      rw [pushSlot_succ]
      exact hword j (by omega)
  · obtain ⟨hlow, hhigh⟩ := pushSlot_zero s.sp ▸ hb 0 (by omega)
    rw [hbyte b fun j hj => pushSlot_succ s.sp j ▸ hb (j + 1) (by omega), pushed_mem]
    exact readByte_write_other (not_mem_accessBytes_word.2 ⟨hlow, hsucc ▸ hhigh⟩) _ _

theorem pushAll_limit {vs : List Word} {k : Nat} {s : State} (hk : k < vs.length) (hfew : k < 6)
    (h : PushesUntil k s) : ∃ u, pushAll vs s = .error (.trap .stackLimit) u ∧ Pushed vs k s u := by
  induction vs generalizing k s with
  | nil => exact absurd hk (Nat.not_lt_zero k)
  | cons v vs ih =>
    cases k with
    | zero =>
      have hout := pushSlot_zero s.sp ▸ h.outside
      have hsp : (s.setSp (s.sp - 2)).sp = pushSlot s.sp 0 := by
        rw [setSp_sp, mask_of_even (even_sub_two h.sp_even), pushSlot_zero]
      exact ⟨_, bind_of_error (pushProgram_limit v h.sp_even hout), hsp, nofun, fun _ _ => rfl, rfl⟩
    | succ k =>
      obtain ⟨hlp, htop, hram⟩ := pushSlot_zero s.sp ▸ h.inside 0 (Nat.succ_pos k)
      obtain ⟨u, hu, hpushed⟩ := ih (Nat.lt_of_succ_lt_succ hk) (by omega) (h.pushed v)
      exact ⟨u, (bind_of_ok (pushProgram_ram v h.calm h.sp_even hlp htop hram)).trans hu,
        hpushed.cons h.sp_even h.mem_wf (by omega)⟩

/-- SRG whose push number `k` is outside the limits. -/
theorem saveRegisters_limit {k : Nat} {s : State} (hk : k < 6) (h : PushesUntil k s) :
    ∃ u, saveRegisters s = .error (.trap .stackLimit) u ∧ Pushed [s.rf, s.re, s.rd, s.rc, s.rb, s.ra] k s u := by
  rw [saveRegisters_apply]
  exact pushAll_limit hk hk h

/-! ### The pops of CRG (45_zero_operand.md R330) -/

/-- Where pop number `j` reads that begins with SP at `sp`. -/
def popSlot (sp : Word) (j : Nat) : Word := sp + 2 * BitVec.ofNat 16 j

theorem popSlot_zero (sp : Word) : popSlot sp 0 = sp := by simp [popSlot]

theorem popSlot_succ (sp : Word) (j : Nat) : popSlot sp (j + 1) = popSlot (sp + 2) j := by
  unfold popSlot
  bv_omega

/-- Registers popped one after the other. -/
def popAll : List GReg → M Unit
  | [] => pure ()
  | r :: rs => popToReg r >>= fun _ => popAll rs

theorem restoreRegisters_eq : restoreRegisters = popAll [.ra, .rb, .rc, .rd, .re, .rf] := by
  simp only [popAll, bind_pure_unit]
  rfl

/-- The state after a pop to a register. -/
def State.popped (s : State) (r : GReg) : State := (s.setG r (s.mem.read true s.sp)).setSp (s.sp + 2)

theorem popped_sp {s : State} (heven : s.sp.getLsbD 0 = false) (r : GReg) : (s.popped r).sp = s.sp + 2 :=
  mask_of_even (even_add_two heven)

theorem popped_getG (s : State) (r q : GReg) : (s.popped r).getG q = (s.setG r (s.mem.read true s.sp)).getG q :=
  setSp_getG ..

theorem popped_same (s : State) (r : GReg) : ∃ ra rb rc rd re rf sp, s.popped r =
    { s with ra := ra, rb := rb, rc := rc, rd := rd, re := re, rf := rf, sp := sp } := by
  cases r <;> exact ⟨_, _, _, _, _, _, _, rfl⟩

theorem popToReg_memory (r : GReg) {s : State} (hc : s.calm) (hlp : s.lp.toNat ≤ s.sp.toNat)
    (htop : s.sp.toNat ≤ 0xF7FF) (hm : s.memoryAt s.sp = true) : popToReg r s = .ok () (s.popped r) := by
  have hread := pstackRead_inside (wide := true) (outsideStack_eq_false htop hlp)
  rw [busRead_memory hc hm] at hread
  rw [popToReg, get_bind_apply, bind_of_ok hread, modify_apply, State.popped]

theorem popToReg_limit (r : GReg) {s : State} (hout : s.sp.toNat < s.lp.toNat ∨ 0xF7FF < s.sp.toNat) :
    popToReg r s = .error (.trap .stackLimit) s := by
  have hread : pstackRead true s.sp s = .error (.trap .stackLimit) s := raiseIf_bind_true (outsideStack_eq_true hout)
  rw [popToReg, get_bind_apply, bind_of_error hread]

/-- The first `k` pops from this state are inside the limits and read memory, the next one is outside. -/
structure PopsUntil (k : Nat) (s : State) : Prop where
  calm : s.calm
  sp_even : s.sp.getLsbD 0 = false
  inside : ∀ j, j < k → s.lp.toNat ≤ (popSlot s.sp j).toNat ∧ (popSlot s.sp j).toNat ≤ 0xF7FF ∧
    s.memoryAt (popSlot s.sp j) = true
  outside : (popSlot s.sp k).toNat < s.lp.toNat ∨ 0xF7FF < (popSlot s.sp k).toNat

/-- What `k` pops to the registers `rs` leave. -/
structure Popped (rs : List GReg) (k : Nat) (s u : State) : Prop where
  sp : u.sp = popSlot s.sp k
  loaded : ∀ j r, rs[j]? = some r → u.getG r = if j < k then s.mem.read true (popSlot s.sp j) else s.getG r
  other : ∀ r, r ∉ rs → u.getG r = s.getG r
  same : u = { s with ra := u.ra, rb := u.rb, rc := u.rc, rd := u.rd, re := u.re, rf := u.rf, sp := u.sp }

theorem PopsUntil.popped {k : Nat} {s : State} (h : PopsUntil (k + 1) s) (r : GReg) : PopsUntil k (s.popped r) := by
  have hsp := popped_sp h.sp_even r
  obtain ⟨ra, rb, rc, rd, re, rf, sp, hsame⟩ := popped_same s r
  refine ⟨h.calm.congr (by rw [hsame]) (by rw [hsame]) (by rw [hsame]), hsp ▸ even_add_two h.sp_even,
    fun j hj => ?_, ?_⟩
  · rw [hsp, ← popSlot_succ, hsame]
    exact h.inside (j + 1) (by omega)
  · rw [hsp, ← popSlot_succ, hsame]
    exact h.outside

theorem Popped.cons {r : GReg} {rs : List GReg} {k : Nat} {s u : State} (heven : s.sp.getLsbD 0 = false)
    (hr : r ∉ rs) (h : Popped rs k (s.popped r) u) : Popped (r :: rs) (k + 1) s u := by
  obtain ⟨hsp, hloaded, hother, hsame⟩ := h
  rw [popped_sp heven] at hsp hloaded
  obtain ⟨ra, rb, rc, rd, re, rf, sp, hpopped⟩ := popped_same s r
  have hmem : (s.popped r).mem = s.mem := by rw [hpopped]
  refine ⟨hsp.trans (popSlot_succ ..).symm, fun j q hq => ?_, fun q hq => ?_, by rw [hsame, hpopped]⟩
  · cases j with
    | zero =>
      obtain rfl : r = q := by simpa using hq
      rw [hother r hr, popped_getG, setG_getG_same, if_pos (Nat.succ_pos k), popSlot_zero]
    | succ j =>
      have hqs : rs[j]? = some q := by simpa using hq
      have hne : q ≠ r := fun hqr => hr (hqr ▸ List.mem_of_getElem? hqs)
      rw [hloaded j q hqs, hmem, popped_getG, setG_getG_other s r q _ hne, popSlot_succ]
      simp only [Nat.add_lt_add_iff_right]
  · obtain ⟨hne, hqs⟩ := not_or.1 (List.mem_cons.not.1 hq)
    rw [hother q hqs, popped_getG, setG_getG_other s r q _ hne]

theorem popAll_limit {rs : List GReg} {k : Nat} {s : State} (hk : k < rs.length) (hrs : rs.Nodup)
    (h : PopsUntil k s) : ∃ u, popAll rs s = .error (.trap .stackLimit) u ∧ Popped rs k s u := by
  induction rs generalizing k s with
  | nil => exact absurd hk (Nat.not_lt_zero k)
  | cons r rs ih =>
    obtain ⟨hr, hrs⟩ := List.nodup_cons.1 hrs
    cases k with
    | zero =>
      have hout := popSlot_zero s.sp ▸ h.outside
      exact ⟨s, bind_of_error (popToReg_limit r hout), (popSlot_zero _).symm, fun _ _ _ => rfl, fun _ _ => rfl, rfl⟩
    | succ k =>
      obtain ⟨hlp, htop, hm⟩ := popSlot_zero s.sp ▸ h.inside 0 (Nat.succ_pos k)
      obtain ⟨u, hu, hpopped⟩ := ih (Nat.lt_of_succ_lt_succ hk) hrs (h.popped r)
      exact ⟨u, (bind_of_ok (popToReg_memory r h.calm hlp htop hm)).trans hu, hpopped.cons h.sp_even hr⟩

/-- CRG whose pop number `k` is outside the limits. -/
theorem restoreRegisters_limit {k : Nat} {s : State} (hk : k < 6) (h : PopsUntil k s) :
    ∃ u, restoreRegisters s = .error (.trap .stackLimit) u ∧ Popped [.ra, .rb, .rc, .rd, .re, .rf] k s u := by
  rw [restoreRegisters_eq]
  exact popAll_limit hk (by decide) h

/-! ### Operand accesses that raise a trap (R171)

An instruction ends in the trap that abandons its computation; no shape sets a new PSW before its last access. -/

/-- Instruction `i` ends in trap `e`, taken from `u`, with the PSW as it was. -/
def EndsInTrap (i : Instr) (s : State) (e : Trap) (u : State) : Prop := exec i s = raiseInInstr e u ∧ u.psw = s.psw

/-- What abandons `x` comes before any new PSW is set. -/
def Unflagged (x : M Unit) : Prop := ∀ s e u, x s = .error e u → u.psw = s.psw

theorem OperandOnly.psw {s t : State} (h : OperandOnly s t) : t.psw = s.psw := by rw [h.same]

theorem endsInTrap_of_error {i : Instr} {x : M Unit} {s u : State} {e : Trap} (hx : exec i s = runM x s)
    (hflags : Unflagged x) (h : x s = .error (.trap e) u) : EndsInTrap i s e u :=
  ⟨hx.trans (runM_trap h), hflags s _ u h⟩

section
variable {α : Type} {x : M α} {g : α → M Unit}

theorem unflagged_of_keeps {x : M Unit} (hx : Keeps OperandOnly x) : Unflagged x := fun s _ _ h =>
  (keepsAt_error (hx s) h).psw

theorem unflagged_bind (hx : Keeps OperandOnly x) (hg : ∀ a, Unflagged (g a)) : Unflagged (x >>= g) := by
  intro s e u h
  obtain hxu | ⟨a, t, hxt, hgu⟩ := bind_error.1 h
  · exact (keepsAt_error (hx s) hxu).psw
  · exact (hg a t e u hgu).trans (keepsAt_ok (hx s) hxt).psw

theorem unflagged_get_bind {g : State → M Unit} (hg : ∀ s, Unflagged (g s)) : Unflagged (get >>= g) :=
  fun s e u h => hg s s e u h

/-- An update of the state is never abandoned. -/
theorem unflagged_modify (g : State → State) : Unflagged (modify g) := fun _ _ _ h => nomatch h

/-- What DJZ does after its write: the new PSW, then the jump. -/
theorem unflagged_setFlags_doIf (p : Word) (b : Bool) (g : State → State) :
    Unflagged (setFlags p >>= fun _ => doIf b (modify g)) := by
  intro s e u h
  obtain h | ⟨_, t, _, h⟩ := bind_error.1 h
  · cases h
  · cases b <;> cases h

end

section
variable {n : Nat} {f d : Operand}

theorem readLoc_operandOnly (n : Nat) (l : Loc) : Keeps OperandOnly (readLoc n l) :=
  keeps_imp operandOnly_of_bus (readLoc_busOnly n l)

/-- The last access of an instruction, then its new PSW. -/
theorem unflagged_write (l : Loc) (v : BitVec n) (p : Word) : Unflagged (writeLoc n l v >>= fun _ => setFlags p) :=
  unflagged_bind (writeLoc_operandOnly n l v) fun _ => unflagged_modify _

theorem twoReadWrite_unflagged (op : BitVec n → BitVec n → Word → BitVec n × Word) :
    Unflagged (twoReadWrite n op f d) :=
  unflagged_bind (readOperand_operandOnly n f) fun _ => unflagged_bind (locate_operandOnly d) fun l =>
    unflagged_bind (readLoc_operandOnly n l) fun _ => unflagged_get_bind fun _ => unflagged_write l _ _

theorem moveOp_unflagged : Unflagged (moveOp n f d) :=
  unflagged_bind (readOperand_operandOnly n f) fun v => unflagged_bind (locate_operandOnly d) fun l =>
    unflagged_bind (writeLoc_operandOnly n l v) fun _ => unflagged_get_bind fun _ => unflagged_modify _

theorem exchangeOp_unflagged : Unflagged (exchangeOp n f d) :=
  unflagged_bind (locate_operandOnly f) fun lf => unflagged_bind (readLoc_operandOnly n lf) fun v =>
    unflagged_bind (locate_operandOnly d) fun ld => unflagged_bind (readLoc_operandOnly n ld) fun w =>
      unflagged_bind (writeLoc_operandOnly n lf w) fun _ => unflagged_bind (writeLoc_operandOnly n ld v) fun _ =>
        unflagged_get_bind fun _ => unflagged_modify _

theorem djzOp_unflagged : Unflagged (djzOp f d) :=
  unflagged_bind (locate_operandOnly f) fun l => unflagged_bind (readLoc_operandOnly 16 l) fun _ =>
    unflagged_bind (readOperand_operandOnly 16 d) fun _ => unflagged_get_bind fun _ =>
      unflagged_bind (writeLoc_operandOnly 16 l _) fun _ => unflagged_setFlags_doIf _ _ _

theorem jsbOp_unflagged : Unflagged (jsbOp f d) :=
  unflagged_bind (locate_operandOnly f) fun l => unflagged_bind (readLoc_operandOnly 16 l) fun link =>
    unflagged_bind (readOperand_operandOnly 16 d) fun _ => unflagged_get_bind fun _ =>
      unflagged_bind (writeLoc_operandOnly 16 l _) fun _ => unflagged_bind (pushProgram_operandOnly link) fun _ =>
        unflagged_modify _

theorem oneReadWrite_unflagged (op : BitVec n → Word → BitVec n × Word) : Unflagged (oneReadWrite n op d) :=
  unflagged_bind (locate_operandOnly d) fun l => unflagged_bind (readLoc_operandOnly n l) fun _ =>
    unflagged_get_bind fun _ => unflagged_write l _ _

theorem oneWriteNegative_unflagged (op : BitVec n → Word → BitVec n × Word) : Unflagged (oneWriteNegative n op d) :=
  unflagged_bind (locate_operandOnly d) fun l => unflagged_bind (readLoc_operandOnly n l) fun v =>
    unflagged_get_bind fun _ => unflagged_bind (keeps_doIf operandOnly_frame v.msb (writeLoc_operandOnly n l _))
      fun _ => unflagged_modify _

theorem oneWriteOnly_unflagged (op : Word → BitVec n × Word) : Unflagged (oneWriteOnly n op d) :=
  unflagged_bind (locate_operandOnly d) fun l => unflagged_get_bind fun _ => unflagged_write l _ _

theorem storeSpecial_unflagged (reg : State → Word) : Unflagged (storeSpecial reg d) :=
  unflagged_bind (locate_operandOnly d) fun l => unflagged_get_bind fun _ =>
    unflagged_of_keeps (writeLoc_operandOnly 16 l _)

theorem retOp_unflagged : Unflagged (retOp d) :=
  unflagged_bind (locate_operandOnly d) fun l => unflagged_bind (readLoc_operandOnly 16 l) fun _ =>
    unflagged_bind (keeps_modify fun s => operandOnly_setPc s _) fun _ => unflagged_get_bind fun _ =>
      unflagged_bind (keeps_imp operandOnly_of_bus (pstackRead_busOnly _ _)) fun v =>
        unflagged_bind (writeLoc_operandOnly 16 l v) fun _ => unflagged_modify _

theorem storeInt_unflagged (a : AcReg) : Unflagged (storeInt a d) :=
  unflagged_bind (locate_operandOnly d) fun l => unflagged_bind (requireUp_keeps operandOnly_frame) fun _ =>
    unflagged_get_bind fun _ => unflagged_bind (writeLoc_operandOnly 16 l _) fun _ => unflagged_modify _

theorem sfgmbOp_unflagged : Unflagged (sfgmbOp d) :=
  unflagged_of_keeps <| keeps_bind operandOnly_frame (locate_operandOnly d) fun l => keeps_get_bind fun s => by
    split
    · exact writeLoc_operandOnly 8 l _ s
    · exact keepsAt_bind operandOnly_frame (keepsAt_set ⟨rfl, id, id, id⟩) fun _ t _ => writeLoc_operandOnly 8 l _ t

end

/-! ### Operands that are read -/

/-- The first thing `x` does is to read operand `o`: what abandons that read abandons `x`. -/
def ReadsFirst (n : Nat) (o : Operand) (x : M Unit) : Prop :=
  ∀ s e u, readOperand n o s = .error e u → x s = .error e u

/-- The first things `x` does are to read operand `f`, then operand `d`. -/
def ReadsSecond (n : Nat) (f d : Operand) (x : M Unit) : Prop :=
  ∀ s v t e u, readOperand n f s = .ok v t → readOperand n d t = .error e u → x s = .error e u

section
variable {n : Nat} {f d o : Operand}

/-- An operand whose location is not used again. -/
theorem readsFirst_value {g : BitVec n → M Unit} : ReadsFirst n o (readOperand n o >>= g) := fun _ _ _ => bind_of_error

/-- An operand whose location is used again. -/
theorem readsFirst_location {g : Loc → BitVec n → M Unit} :
    ReadsFirst n o (locate o >>= fun l => readLoc n l >>= g l) := by
  intro s e u h
  obtain hl | ⟨l, t, hl, hv⟩ := bind_error.1 h
  · exact bind_of_error hl
  · exact (bind_of_ok hl).trans (bind_of_error hv)

theorem readsSecond_value {g : BitVec n → M Unit} (hg : ∀ v, ReadsFirst n d (g v)) :
    ReadsSecond n f d (readOperand n f >>= g) :=
  fun _ v t e u hv he => (bind_of_ok hv).trans (hg v t e u he)

theorem readsSecond_location {g : Loc → BitVec n → M Unit} (hg : ∀ l v, ReadsFirst n d (g l v)) :
    ReadsSecond n f d (locate f >>= fun l => readLoc n l >>= g l) := by
  intro s v t e u h he
  obtain ⟨l, t', hl, hv⟩ := bind_ok.1 h
  exact (bind_of_ok hl).trans ((bind_of_ok hv).trans (hg l v t e u he))

variable {i : Instr} {x : M Unit} {s u : State} {e : Trap}

theorem ReadsFirst.endsInTrap (hr : ReadsFirst n o x) (hx : exec i s = runM x s)
    (h : readOperand n o s = .error (.trap e) u) : EndsInTrap i s e u :=
  ⟨hx.trans (runM_trap (hr s _ u h)), (keepsAt_error (readOperand_operandOnly n o s) h).psw⟩

theorem ReadsSecond.endsInTrap (hr : ReadsSecond n f d x) (hx : exec i s = runM x s) {v : BitVec n} {t : State}
    (hv : readOperand n f s = .ok v t) (h : readOperand n d t = .error (.trap e) u) : EndsInTrap i s e u :=
  ⟨hx.trans (runM_trap (hr s v t _ u hv h)), (keepsAt_error (readOperand_operandOnly n d t) h).psw.trans
    (keepsAt_ok (readOperand_operandOnly n f s) hv).psw⟩

/-- An instruction that begins by locating its operand. -/
theorem endsInTrap_of_locate {g : Loc → M Unit} (hx : exec i s = runM (locate o >>= g) s)
    (h : locate o s = .error (.trap e) u) : EndsInTrap i s e u :=
  ⟨hx.trans (runM_trap (bind_of_error h)), (keepsAt_error (locate_operandOnly o s) h).psw⟩

end

/-! ### Destinations that are written -/

section
variable {n : Nat} {f d : Operand} {ls ld : Loc} {sv dv : BitVec n} {s s1 s2 s3 s4 s5 u : State} {e : Abort}

theorem twoReadWrite_write_error {op : BitVec n → BitVec n → Word → BitVec n × Word}
    (hsv : readOperand n f s = .ok sv s1) (hld : locate d s1 = .ok ld s2) (hdv : readLoc n ld s2 = .ok dv s3)
    (h : writeLoc n ld (op sv dv s3.psw).1 s3 = .error e u) : twoReadWrite n op f d s = .error e u := by
  rw [twoReadWrite, bind_of_ok hsv, bind_of_ok hld, bind_of_ok hdv, get_bind_apply, bind_of_error h]

theorem moveOp_locate_error (hsv : readOperand n f s = .ok sv s1) (h : locate d s1 = .error e u) :
    moveOp n f d s = .error e u := by
  rw [moveOp, bind_of_ok hsv, bind_of_error h]

theorem moveOp_write_error (hsv : readOperand n f s = .ok sv s1) (hld : locate d s1 = .ok ld s2)
    (h : writeLoc n ld sv s2 = .error e u) : moveOp n f d s = .error e u := by
  rw [moveOp, bind_of_ok hsv, bind_of_ok hld, bind_of_error h]

section
variable (hls : locate f s = .ok ls s1) (hsv : readLoc n ls s1 = .ok sv s2) (hld : locate d s2 = .ok ld s3)
  (hdv : readLoc n ld s3 = .ok dv s4)
include hls hsv hld hdv

/-- EXC writes the source location first (R214). -/
theorem exchangeOp_first_error (h : writeLoc n ls dv s4 = .error e u) : exchangeOp n f d s = .error e u := by
  rw [exchangeOp, bind_of_ok hls, bind_of_ok hsv, bind_of_ok hld, bind_of_ok hdv, bind_of_error h]

theorem exchangeOp_second_error (hw : writeLoc n ls dv s4 = .ok () s5) (h : writeLoc n ld sv s5 = .error e u) :
    exchangeOp n f d s = .error e u := by
  rw [exchangeOp, bind_of_ok hls, bind_of_ok hsv, bind_of_ok hld, bind_of_ok hdv, bind_of_ok hw, bind_of_error h]

end

theorem oneReadWrite_write_error {op : BitVec n → Word → BitVec n × Word} (hld : locate d s = .ok ld s1)
    (hdv : readLoc n ld s1 = .ok dv s2) (h : writeLoc n ld (op dv s2.psw).1 s2 = .error e u) :
    oneReadWrite n op d s = .error e u := by
  rw [oneReadWrite, bind_of_ok hld, bind_of_ok hdv, get_bind_apply, bind_of_error h]

theorem oneWriteNegative_write_error (hld : locate d s = .ok ld s1) (hdv : readLoc n ld s1 = .ok dv s2)
    (hneg : dv.msb = true) (h : writeLoc n ld (-dv) s2 = .error e u) : oneWriteNegative n aluAbs d s = .error e u := by
  have habs : (aluAbs dv s2.psw).1 = -dv := by rw [aluAbs, hneg, if_pos rfl, BitVec.neg_eq_not_add]; rfl
  have hwrite : doIf dv.msb (writeLoc n ld (aluAbs dv s2.psw).1) s2 = .error e u := by
    rw [doIf_apply, hneg, if_pos rfl, habs, h]
  rw [oneWriteNegative, bind_of_ok hld, bind_of_ok hdv, get_bind_apply, bind_of_error hwrite]

theorem oneWriteOnly_write_error {op : Word → BitVec n × Word} (hld : locate d s = .ok ld s1)
    (h : writeLoc n ld (op s1.psw).1 s1 = .error e u) : oneWriteOnly n op d s = .error e u := by
  rw [oneWriteOnly, bind_of_ok hld, get_bind_apply, bind_of_error h]

theorem storeSpecial_write_error {reg : State → Word} (hld : locate d s = .ok ld s1)
    (h : writeLoc 16 ld (reg s1) s1 = .error e u) : storeSpecial reg d s = .error e u := by
  rw [storeSpecial, bind_of_ok hld, get_bind_apply, h]

/-- Locating an operand does not reach the ASTROM nor its switch. -/
theorem OperandOnly.unit (h : OperandOnly s s1) : s1.upfok = s.upfok ∧ ∀ a, s1.getM a = s.getM a := by
  rw [h.same]
  exact ⟨rfl, fun a => by cases a <;> rfl⟩

theorem sfgmbOp_on_error (hld : locate d s = .ok ld s1) (hup : s.upfok = true)
    (h : writeLoc 8 ld (codesByte s1.mf true) s1 = .error e u) : sfgmbOp d s = .error e u := by
  have hup1 : s1.upfok = true := (keepsAt_ok (locate_operandOnly d s) hld).unit.1.trans hup
  rw [sfgmbOp, bind_of_ok hld, get_bind_apply, hup1, if_pos rfl, h]

theorem sfgmbOp_off_error (hld : locate d s = .ok ld s1) (hup : s.upfok = false)
    (h : writeLoc 8 ld (Config.sfgmbAbsent s1.freeCount ++ 0#1) { s1 with freeCount := s1.freeCount + 1 } =
      .error e u) : sfgmbOp d s = .error e u := by
  have hup1 : s1.upfok = false := (keepsAt_ok (locate_operandOnly d s) hld).unit.1.trans hup
  rw [sfgmbOp, bind_of_ok hld, get_bind_apply, hup1, if_neg Bool.false_ne_true]
  exact h

theorem storeInt_write_error {a : AcReg} (hld : locate d s = .ok ld s1) (hup : s.upfok = true)
    (h : writeLoc 16 ld ((s.getM a).extractLsb' 0 16) s1 = .error e u) : storeInt a d s = .error e u := by
  obtain ⟨hup1, hm⟩ := (keepsAt_ok (locate_operandOnly d s) hld).unit
  have hon : requireUp s1 = .ok () s1 := by rw [requireUp, get_bind_apply, hup1, hup]; rfl
  rw [← hm a] at h
  rw [storeInt, bind_of_ok hld, bind_of_ok hon, get_bind_apply, bind_of_error h]

end

section
variable {f d : Operand} {ls ld : Loc} {sv dv v w : Word} {s s1 s2 s3 s4 u : State} {e : Abort}

section
variable (hls : locate f s = .ok ls s1) (hsv : readLoc 16 ls s1 = .ok sv s2) (hdv : readOperand 16 d s2 = .ok dv s3)
include hls hsv hdv

theorem djzOp_write_error (h : writeLoc 16 ls (sv - 1) s3 = .error e u) : djzOp f d s = .error e u := by
  rw [djzOp, bind_of_ok hls, bind_of_ok hsv, bind_of_ok hdv, get_bind_apply]
  exact bind_of_error h

theorem jsbOp_link_error (h : writeLoc 16 ls s3.pc s3 = .error e u) : jsbOp f d s = .error e u := by
  rw [jsbOp, bind_of_ok hls, bind_of_ok hsv, bind_of_ok hdv, get_bind_apply, bind_of_error h]

theorem jsbOp_push_error (hlink : writeLoc 16 ls s3.pc s3 = .ok () s4)
    (h : pstackWrite true ((s4.sp - 2) &&& 0xFFFE) sv (s4.setSp (s4.sp - 2)) = .error e u) :
    jsbOp f d s = .error e u := by
  have hpush : pushProgram sv s4 = .error e u := h
  rw [jsbOp, bind_of_ok hls, bind_of_ok hsv, bind_of_ok hdv, get_bind_apply, bind_of_ok hlink, bind_of_error hpush]

end

theorem retOp_apply (hld : locate d s = .ok ld s1) (hv : readLoc 16 ld s1 = .ok v s2) : retOp d s =
    (pstackRead true s2.sp >>= fun w => writeLoc 16 ld w >>= fun _ => modify fun t => t.setSp (t.sp + 2))
      (s2.setPc v) := by
  rw [retOp, bind_of_ok hld, bind_of_ok hv]
  rfl

theorem retOp_pop_error (hld : locate d s = .ok ld s1) (hv : readLoc 16 ld s1 = .ok v s2)
    (h : pstackRead true s2.sp (s2.setPc v) = .error e u) : retOp d s = .error e u := by
  rw [retOp_apply hld hv, bind_of_error h]

theorem retOp_write_error (hld : locate d s = .ok ld s1) (hv : readLoc 16 ld s1 = .ok v s2)
    (hw : pstackRead true s2.sp (s2.setPc v) = .ok w s3) (h : writeLoc 16 ld w s3 = .error e u) :
    retOp d s = .error e u := by
  rw [retOp_apply hld hv, bind_of_ok hw, bind_of_error h]

end

/-! ### The instructions that read an operand or locate one -/

section
variable {f d p : Operand} {s s1 u : State} {e : Trap}

theorem word_first_trap {c : Operand → Operand → Instr}
    (hc : c ∈ wordTwo.map (·.1) ++ wordCompare.map (·.1) ++ [Instr.mov, .exc, .djz, .jsb])
    (h : readOperand 16 f s = .error (.trap e) u) : EndsInTrap (c f d) s e u := by
  simp only [List.mem_append, List.mem_map, List.mem_cons, List.not_mem_nil, or_false] at hc
  obtain (⟨q, hq, rfl⟩ | ⟨q, hq, rfl⟩) | rfl | rfl | rfl | rfl := hc
  · exact readsFirst_value.endsInTrap (exec_wordTwo hq f d s) h
  · exact readsFirst_value.endsInTrap (exec_wordCompare hq f d s) h
  · exact readsFirst_value.endsInTrap (x := moveOp 16 f d) rfl h
  · exact readsFirst_location.endsInTrap (x := exchangeOp 16 f d) rfl h
  · exact readsFirst_location.endsInTrap (x := djzOp f d) rfl h
  · exact readsFirst_location.endsInTrap (x := jsbOp f d) rfl h

theorem byte_first_trap {c : Operand → Operand → Instr}
    (hc : c ∈ byteTwo.map (·.1) ++ byteCompare.map (·.1) ++ [Instr.movb, .excb])
    (h : readOperand 8 f s = .error (.trap e) u) : EndsInTrap (c f d) s e u := by
  simp only [List.mem_append, List.mem_map, List.mem_cons, List.not_mem_nil, or_false] at hc
  obtain (⟨q, hq, rfl⟩ | ⟨q, hq, rfl⟩) | rfl | rfl := hc
  · exact readsFirst_value.endsInTrap (exec_byteTwo hq f d s) h
  · exact readsFirst_value.endsInTrap (exec_byteCompare hq f d s) h
  · exact readsFirst_value.endsInTrap (x := moveOp 8 f d) rfl h
  · exact readsFirst_location.endsInTrap (x := exchangeOp 8 f d) rfl h

theorem word_one_trap {c : Operand → Instr}
    (hc : c ∈ wordOne.map (·.1) ++ [Instr.abs, .cpz, .jmp, .clp, .cmk, .dmi, .mki, .csps, .ret])
    (h : readOperand 16 d s = .error (.trap e) u) : EndsInTrap (c d) s e u := by
  have hload : ∀ {i : Instr} {upd : Word → State → State}, exec i s = runM (loadSpecial upd d) s →
      EndsInTrap i s e u := fun hx => readsFirst_value.endsInTrap hx h
  simp only [List.mem_append, List.mem_map, List.mem_cons, List.not_mem_nil, or_false] at hc
  obtain ⟨q, hq, rfl⟩ | rfl | rfl | rfl | rfl | rfl | rfl | rfl | rfl | rfl := hc
  · exact readsFirst_location.endsInTrap (exec_wordOne hq d s) h
  · exact readsFirst_location.endsInTrap (x := oneWriteNegative 16 aluAbs d) rfl h
  · exact readsFirst_value.endsInTrap (x := oneReadOnly 16 aluCpz d) rfl h
  · exact hload rfl
  · exact hload rfl
  · exact hload rfl
  · exact hload rfl
  · exact hload rfl
  · exact hload rfl
  · exact readsFirst_location.endsInTrap (x := retOp d) rfl h

theorem byte_one_trap {c : Operand → Instr} (hc : c ∈ byteOne.map (·.1) ++ [Instr.absb, .cpzb])
    (h : readOperand 8 d s = .error (.trap e) u) : EndsInTrap (c d) s e u := by
  simp only [List.mem_append, List.mem_map, List.mem_cons, List.not_mem_nil, or_false] at hc
  obtain ⟨q, hq, rfl⟩ | rfl | rfl := hc
  · exact readsFirst_location.endsInTrap (exec_byteOne hq d s) h
  · exact readsFirst_location.endsInTrap (x := oneWriteNegative 8 aluAbs d) rfl h
  · exact readsFirst_value.endsInTrap (x := oneReadOnly 8 aluCpz d) rfl h

theorem astrom_word_trap {c : AcReg → Operand → Instr} {a : AcReg}
    (hc : c ∈ astromIntP.map (·.1) ++ [Instr.ipfp, .cri]) (h : readOperand 16 p s = .error (.trap e) u) :
    EndsInTrap (c a p) s e u := by
  simp only [List.mem_append, List.mem_map, List.mem_cons, List.not_mem_nil, or_false] at hc
  obtain ⟨q, hq, rfl⟩ | rfl | rfl := hc
  · exact readsFirst_value.endsInTrap (exec_astromIntP hq a p s) h
  · exact readsFirst_value.endsInTrap (x := astromOp (wordSource p) itofOp true a) rfl h
  · exact readsFirst_value.endsInTrap (x := astromOp (wordSource p) loadIntOp true a) rfl h

theorem word_second_trap {c : Operand → Operand → Instr}
    (hc : c ∈ wordTwo.map (·.1) ++ wordCompare.map (·.1) ++ [Instr.exc, .djz, .jsb]) {sv : Word}
    (hsv : readOperand 16 f s = .ok sv s1) (h : readOperand 16 d s1 = .error (.trap e) u) :
    EndsInTrap (c f d) s e u := by
  simp only [List.mem_append, List.mem_map, List.mem_cons, List.not_mem_nil, or_false] at hc
  obtain (⟨q, hq, rfl⟩ | ⟨q, hq, rfl⟩) | rfl | rfl | rfl := hc
  · exact (readsSecond_value fun _ => readsFirst_location).endsInTrap (exec_wordTwo hq f d s) hsv h
  · exact (readsSecond_value fun _ => readsFirst_value).endsInTrap (exec_wordCompare hq f d s) hsv h
  · exact (readsSecond_location fun _ _ => readsFirst_location).endsInTrap (x := exchangeOp 16 f d) rfl hsv h
  · exact (readsSecond_location fun _ _ => readsFirst_value).endsInTrap (x := djzOp f d) rfl hsv h
  · exact (readsSecond_location fun _ _ => readsFirst_value).endsInTrap (x := jsbOp f d) rfl hsv h

theorem byte_second_trap {c : Operand → Operand → Instr}
    (hc : c ∈ byteTwo.map (·.1) ++ byteCompare.map (·.1) ++ [Instr.excb]) {sv : Byte}
    (hsv : readOperand 8 f s = .ok sv s1) (h : readOperand 8 d s1 = .error (.trap e) u) :
    EndsInTrap (c f d) s e u := by
  simp only [List.mem_append, List.mem_map, List.mem_cons, List.not_mem_nil, or_false] at hc
  obtain (⟨q, hq, rfl⟩ | ⟨q, hq, rfl⟩) | rfl := hc
  · exact (readsSecond_value fun _ => readsFirst_location).endsInTrap (exec_byteTwo hq f d s) hsv h
  · exact (readsSecond_value fun _ => readsFirst_value).endsInTrap (exec_byteCompare hq f d s) hsv h
  · exact (readsSecond_location fun _ _ => readsFirst_location).endsInTrap (x := exchangeOp 8 f d) rfl hsv h

theorem locate_trap {c : Operand → Instr}
    (hc : c ∈ wordStore.map (·.1) ++ byteStore.map (·.1) ++ [Instr.slp, .smk, .ssps, .sfgmb])
    (h : locate d s = .error (.trap e) u) : EndsInTrap (c d) s e u := by
  simp only [List.mem_append, List.mem_map, List.mem_cons, List.not_mem_nil, or_false] at hc
  obtain (⟨q, hq, rfl⟩ | ⟨q, hq, rfl⟩) | rfl | rfl | rfl | rfl := hc
  · exact endsInTrap_of_locate (exec_wordStore hq d s) h
  · exact endsInTrap_of_locate (exec_byteStore hq d s) h
  · exact endsInTrap_of_locate (i := .slp d) rfl h
  · exact endsInTrap_of_locate (i := .smk d) rfl h
  · exact endsInTrap_of_locate (i := .ssps d) rfl h
  · exact endsInTrap_of_locate (i := .sfgmb d) rfl h

/-- Either write of EXC can fail; at the second the first one stays done (R171, R214). -/
theorem exchange_trap {n : Nat} {i : Instr} {ls ld : Loc} {sv dv : BitVec n} {s2 s3 s4 : State}
    (hx : exec i s = runM (exchangeOp n f d) s) (hls : locate f s = .ok ls s1) (hsv : readLoc n ls s1 = .ok sv s2)
    (hld : locate d s2 = .ok ld s3) (hdv : readLoc n ld s3 = .ok dv s4) :
    (writeLoc n ls dv s4 = .error (.trap e) u → EndsInTrap i s e u) ∧
    (∀ s5, writeLoc n ls dv s4 = .ok () s5 → writeLoc n ld sv s5 = .error (.trap e) u → EndsInTrap i s e u) :=
  ⟨fun h => endsInTrap_of_error hx exchangeOp_unflagged (exchangeOp_first_error hls hsv hld hdv h),
    fun _ hw h => endsInTrap_of_error hx exchangeOp_unflagged (exchangeOp_second_error hls hsv hld hdv hw h)⟩

end

/-! ### The obligation -/

/-- Settles O22, clause by clause: the access that fails abandons the computation of the instruction. -/
theorem operandFaultsTrap : Obligations.OperandFaultsTrap := by
  refine ⟨?first16, ?first8, ?one16, ?one8, ?astrom, ?second16, ?second8, ?movLocate, ?movbLocate, ?locate,
    ?wordTwo, ?byteTwo, ?mov, ?movb, ?exc, ?excb, ?djzJsb, ?wordOne, ?byteOne, ?abs, ?absb, ?wordStore, ?byteStore,
    ?special, ?ret, ?srg, ?crg, ?noPair, fun s e hroom hopen => raiseInInstr_room hroom hopen⟩
  case first16 => exact fun c hc f d s e u => word_first_trap hc
  case first8 => exact fun c hc f d s e u => byte_first_trap hc
  case one16 => exact fun c hc d s e u => word_one_trap hc
  case one8 => exact fun c hc d s e u => byte_one_trap hc
  case astrom => exact fun c hc a p s e u => astrom_word_trap hc
  case second16 => exact fun c hc f d s sv s1 e u => word_second_trap hc
  case second8 => exact fun c hc f d s sv s1 e u => byte_second_trap hc
  case movLocate =>
    exact fun f d s sv s1 e u hsv h => endsInTrap_of_error rfl moveOp_unflagged (moveOp_locate_error hsv h)
  case movbLocate =>
    exact fun f d s sv s1 e u hsv h => endsInTrap_of_error rfl moveOp_unflagged (moveOp_locate_error hsv h)
  case locate =>
    exact fun d s e u h => ⟨fun c hc => locate_trap hc h, fun a => endsInTrap_of_locate (i := .azi a d) rfl h⟩
  case wordTwo =>
    exact fun q hq f d s sv s1 ld s2 dv s3 e u hsv hld hdv h => endsInTrap_of_error (exec_wordTwo hq f d s)
      (twoReadWrite_unflagged _) (twoReadWrite_write_error hsv hld hdv h)
  case byteTwo =>
    exact fun q hq f d s sv s1 ld s2 dv s3 e u hsv hld hdv h => endsInTrap_of_error (exec_byteTwo hq f d s)
      (twoReadWrite_unflagged _) (twoReadWrite_write_error hsv hld hdv h)
  case mov =>
    exact fun f d s sv s1 ld s2 e u hsv hld h => endsInTrap_of_error rfl moveOp_unflagged
      (moveOp_write_error hsv hld h)
  case movb =>
    exact fun f d s sv s1 ld s2 e u hsv hld h => endsInTrap_of_error rfl moveOp_unflagged
      (moveOp_write_error hsv hld h)
  case exc => exact fun f d s ls s1 sv s2 ld s3 dv s4 e u hls hsv hld hdv => exchange_trap rfl hls hsv hld hdv
  case excb => exact fun f d s ls s1 sv s2 ld s3 dv s4 e u hls hsv hld hdv => exchange_trap rfl hls hsv hld hdv
  case djzJsb =>
    exact fun f d s ls s1 sv s2 dv s3 e u hls hsv hdv =>
      ⟨fun h => endsInTrap_of_error rfl djzOp_unflagged (djzOp_write_error hls hsv hdv h),
        fun h => endsInTrap_of_error rfl jsbOp_unflagged (jsbOp_link_error hls hsv hdv h),
        fun s4 hlink h => endsInTrap_of_error rfl jsbOp_unflagged (jsbOp_push_error hls hsv hdv hlink h)⟩
  case wordOne =>
    exact fun q hq d s ld s1 dv s2 e u hld hdv h => endsInTrap_of_error (exec_wordOne hq d s)
      (oneReadWrite_unflagged _) (oneReadWrite_write_error hld hdv h)
  case byteOne =>
    exact fun q hq d s ld s1 dv s2 e u hld hdv h => endsInTrap_of_error (exec_byteOne hq d s)
      (oneReadWrite_unflagged _) (oneReadWrite_write_error hld hdv h)
  case abs =>
    exact fun d s ld s1 dv s2 e u hld hdv hneg h => endsInTrap_of_error rfl (oneWriteNegative_unflagged aluAbs)
      (oneWriteNegative_write_error hld hdv hneg h)
  case absb =>
    exact fun d s ld s1 dv s2 e u hld hdv hneg h => endsInTrap_of_error rfl (oneWriteNegative_unflagged aluAbs)
      (oneWriteNegative_write_error hld hdv hneg h)
  case wordStore =>
    exact fun q hq d s ld s1 e u hld h => endsInTrap_of_error (exec_wordStore hq d s) (oneWriteOnly_unflagged _)
      (oneWriteOnly_write_error hld h)
  case byteStore =>
    exact fun q hq d s ld s1 e u hld h => endsInTrap_of_error (exec_byteStore hq d s) (oneWriteOnly_unflagged _)
      (oneWriteOnly_write_error hld h)
  case special =>
    intro d s ld s1 e u hld
    have hstore : ∀ {i : Instr} (reg : State → Word), exec i s = runM (storeSpecial reg d) s →
        writeLoc 16 ld (reg s1) s1 = .error (.trap e) u → EndsInTrap i s e u := fun reg hx h =>
      endsInTrap_of_error hx (storeSpecial_unflagged reg) (storeSpecial_write_error hld h)
    exact ⟨hstore (·.lp) rfl, hstore (·.imk) rfl, hstore (·.sps) rfl,
      fun hup h => endsInTrap_of_error rfl sfgmbOp_unflagged (sfgmbOp_on_error hld hup h),
      fun hup h => endsInTrap_of_error rfl sfgmbOp_unflagged (sfgmbOp_off_error hld hup h),
      fun a hup h => endsInTrap_of_error rfl (storeInt_unflagged a) (storeInt_write_error hld hup h)⟩
  case ret =>
    exact fun d s ld s1 v s2 e u hld hv =>
      ⟨fun h => endsInTrap_of_error rfl retOp_unflagged (retOp_pop_error hld hv h),
        fun w s3 hw h => endsInTrap_of_error rfl retOp_unflagged (retOp_write_error hld hv hw h)⟩
  case srg =>
    intro s k hk hc hwf heven a hin hout
    obtain ⟨u, hu, hpushed⟩ := saveRegisters_limit hk ⟨hc, hwf, heven, hin, hout⟩
    exact ⟨u, ⟨runM_trap hu, by rw [hpushed.same]⟩, hpushed.sp, hpushed.word, hpushed.byte, hpushed.same⟩
  case crg =>
    intro s k hk hc heven a hin hout
    obtain ⟨u, hu, hpopped⟩ := restoreRegisters_limit hk ⟨hc, heven, hin, hout⟩
    refine ⟨u, ⟨runM_trap hu, by rw [hpopped.same]⟩, hpopped.sp, fun x hx => hpopped.loaded x.1 x.2 ?_,
      hpopped.same⟩
    fin_cases hx <;> rfl
  case noPair =>
    intro o s ho
    have hlocate := locateLong_of_none ho s
    have hsource : longSource o s = .error (.trap .invalidOpcode) s := bind_of_error hlocate
    exact ⟨fun q hq => (exec_longShifts hq o s).trans (runM_trap (bind_of_error hlocate)),
      fun a q hq => (exec_astromFloatP hq a o s).trans (runM_trap (bind_of_error hsource)),
      fun a => ⟨runM_trap (bind_of_error hsource), runM_trap (bind_of_error hlocate)⟩⟩

end Sys2Proof.Machine

/-! SUPPORT. The two-operand instructions (41_two_operand.md) and RET: what the arithmetic and the logic instructions
compute, how each shape completes when its operand accesses succeed, and the obligations about them. -/

namespace Sys2Proof.Machine

/-! ### The fields of a PSW with new flags (10_state.md R44) -/

section
variable (p : Word) (c v z s : Bool)

@[simp] theorem pswC_withCVZS : pswC (withCVZS p c v z s) = c := getLsbD_withCVZS p c v z s 3

@[simp] theorem pswV_withCVZS : pswV (withCVZS p c v z s) = v := getLsbD_withCVZS p c v z s 2

@[simp] theorem pswZ_withCVZS : pswZ (withCVZS p c v z s) = z := getLsbD_withCVZS p c v z s 1

@[simp] theorem pswS_withCVZS : pswS (withCVZS p c v z s) = s := getLsbD_withCVZS p c v z s 0

@[simp] theorem extractLsb'_withCVZS : (withCVZS p c v z s).extractLsb' 4 12 = p.extractLsb' 4 12 := by
  refine BitVec.eq_of_getLsbD_eq fun k _ => ?_
  rw [BitVec.getLsbD_extractLsb', BitVec.getLsbD_extractLsb', getLsbD_withCVZS, if_neg (by omega), if_neg (by omega),
    if_neg (by omega), if_neg (by omega)]

end

/-! ### Sums and differences (00_scope.md R15, 41_two_operand.md R217)

A difference a - b - borrow is the sum of a and the complement of b with the carry in clear exactly where there is a
borrow. -/

theorem toNat_not_eq_one_sub (c : Bool) : (!c).toNat = 1 - c.toNat := by cases c <;> rfl

section
variable {n : Nat} (a b : BitVec n) (borrow : Bool)

theorem addSum_eq_add (cin : Bool) : addSum a b cin = a + b + BitVec.ofNat n cin.toNat := by
  apply BitVec.eq_of_toNat_eq
  simp [Nat.add_assoc]

theorem addSum_not_eq_sub : addSum a (~~~b) (!borrow) = a - b - BitVec.ofNat n borrow.toNat := by
  rw [addSum_eq_add, BitVec.not_eq_neg_add]
  cases borrow <;> simp [BitVec.sub_eq_add_neg, BitVec.add_assoc]

/-- The carry out is clear exactly where the difference borrows. -/
theorem not_carryOut_not_eq : (!carryOut a (~~~b) (!borrow)) = decide (a.toNat < b.toNat + borrow.toNat) := by
  have hb := b.isLt
  have hborrow := borrow.toNat_le
  rw [carryOut, ← decide_not, BitVec.toNat_not, toNat_not_eq_one_sub]
  exact decide_eq_decide.2 (by omega)

end

theorem toInt_not_eq {m : Nat} (b : BitVec (m + 1)) : (~~~b).toInt = -b.toInt - 1 := by
  have hb := b.isLt
  have hnot : (~~~b).toNat = 2 ^ (m + 1) - 1 - b.toNat := BitVec.toNat_not
  obtain ⟨-, hrange, hint⟩ | ⟨-, hrange, hint⟩ := msb_toInt_cases b <;>
    obtain ⟨-, hrange', hint'⟩ | ⟨-, hrange', hint'⟩ := msb_toInt_cases (~~~b) <;> omega

theorem addOverflow_not_eq_true_iff {m : Nat} (a b : BitVec (m + 1)) (borrow : Bool) :
    addOverflow a (~~~b) (!borrow) = true ↔
      a.toInt - b.toInt - borrow.toNat < -2 ^ m ∨ 2 ^ m ≤ a.toInt - b.toInt - borrow.toNat := by
  have hexact : a.toInt + (~~~b).toInt + ((!borrow).toNat : Int) = a.toInt - b.toInt - borrow.toNat := by
    have hborrow := borrow.toNat_le
    rw [toInt_not_eq, toNat_not_eq_one_sub]
    omega
  rw [addOverflow_eq_true_iff, hexact]

/-! ### Arithmetic (R201 to R205, R217) -/

/-- The computation `x` gives `r`, C is `carry`, V is the overflow of the signed value `exact`, Z and S are by `r`, and
bits 15-4 of the PSW `p` stay. -/
def ArithmeticRow {n : Nat} (p : Word) (x : BitVec n × Word) (r : BitVec n) (carry : Bool) (exact : Int) : Prop :=
  x.1 = r ∧ pswC x.2 = carry ∧ (pswV x.2 = true ↔ exact < -2 ^ (n - 1) ∨ 2 ^ (n - 1) ≤ exact) ∧
    pswZ x.2 = decide (r = 0) ∧ pswS x.2 = r.msb ∧ x.2.extractLsb' 4 12 = p.extractLsb' 4 12

section
variable {m : Nat} (a b : BitVec (m + 1)) (c : Bool) (p : Word)

theorem addResult_row : ArithmeticRow p (addResult a b c p) (a + b + BitVec.ofNat (m + 1) c.toNat)
    (decide (2 ^ (m + 1) ≤ a.toNat + b.toNat + c.toNat)) (a.toInt + b.toInt + c.toNat) := by
  rw [← addSum_eq_add]
  exact ⟨rfl, pswC_withCVZS .., (Bool.eq_iff_iff.1 (pswV_withCVZS ..)).trans (addOverflow_eq_true_iff a b c),
    pswZ_withCVZS .., pswS_withCVZS .., extractLsb'_withCVZS ..⟩

theorem subResult_row : ArithmeticRow p (subResult a (~~~b) (!c) p) (a - b - BitVec.ofNat (m + 1) c.toNat)
    (decide (a.toNat < b.toNat + c.toNat)) (a.toInt - b.toInt - c.toNat) := by
  rw [← addSum_not_eq_sub, ← not_carryOut_not_eq]
  exact ⟨rfl, pswC_withCVZS .., (Bool.eq_iff_iff.1 (pswV_withCVZS ..)).trans (addOverflow_not_eq_true_iff a b c),
    pswZ_withCVZS .., pswS_withCVZS .., extractLsb'_withCVZS ..⟩

theorem addResult_row_of_no_carry : ArithmeticRow p (addResult a b false p) (a + b)
    (decide (2 ^ (m + 1) ≤ a.toNat + b.toNat)) (a.toInt + b.toInt) := by
  simpa using addResult_row a b false p

theorem subResult_row_of_no_borrow : ArithmeticRow p (subResult a (~~~b) true p) (a - b)
    (decide (a.toNat < b.toNat)) (a.toInt - b.toInt) := by
  simpa using subResult_row a b false p

end

/-- Settles O17: DAC and DSB take C in as carry and as borrow, the others nothing. -/
theorem arithmeticResultsAndFlags : Obligations.ArithmeticResultsAndFlags := by
  intro n s d p hn
  obtain ⟨m, rfl⟩ : ∃ m, n = m + 1 := ⟨n - 1, by omega⟩
  exact ⟨addResult_row_of_no_carry s d p, addResult_row s d (pswC p) p, subResult_row_of_no_borrow d s p,
    subResult_row d s (pswC p) p, subResult_row_of_no_borrow s d p⟩

/-! ### Logic (R206 to R212) -/

/-- The computation `x` gives `bit` of each two bits of `s` and `d`, C stays, V is 0, Z and S are by the result, and
bits 15-4 of the PSW `p` stay. -/
def LogicRow {n : Nat} (s d : BitVec n) (p : Word) (x : BitVec n × Word) (bit : Bool → Bool → Bool) : Prop :=
  (∀ k, k < n → x.1.getLsbD k = bit (s.getLsbD k) (d.getLsbD k)) ∧ pswC x.2 = pswC p ∧ pswV x.2 = false ∧
    pswZ x.2 = decide (x.1 = 0) ∧ pswS x.2 = x.1.getLsbD (n - 1) ∧ x.2.extractLsb' 4 12 = p.extractLsb' 4 12

/-- Every logic instruction gives its flags by `logicResult`; its own are the bits only. -/
theorem logicResult_row {n : Nat} {s d r : BitVec n} {bit : Bool → Bool → Bool} (p : Word)
    (hbit : ∀ k, k < n → r.getLsbD k = bit (s.getLsbD k) (d.getLsbD k)) : LogicRow s d p (logicResult r p) bit :=
  ⟨hbit, pswC_withCVZS .., pswV_withCVZS .., pswZ_withCVZS ..,
    (pswS_withCVZS ..).trans (BitVec.msb_eq_getLsbD_last r), extractLsb'_withCVZS ..⟩

theorem logic_rows {n : Nat} (s d : BitVec n) (p : Word) :
    LogicRow s d p (aluAnd s d p) (fun a b => a && b) ∧ LogicRow s d p (aluOr s d p) (fun a b => a || b) ∧
    LogicRow s d p (aluMsk s d p) (fun a b => !a && b) ∧ LogicRow s d p (aluXor s d p) (fun a b => a != b) ∧
    LogicRow s d p (aluXnr s d p) (fun a b => a == b) ∧ LogicRow s d p (aluCoc s d p) (fun a b => a && !b) ∧
    LogicRow s d p (aluCzc s d p) (fun a b => b && !a) := by
  refine ⟨logicResult_row p fun k _ => BitVec.getLsbD_and, logicResult_row p fun k _ => BitVec.getLsbD_or,
    logicResult_row p fun k hk => ?msk, logicResult_row p fun k _ => BitVec.getLsbD_xor,
    logicResult_row p fun k hk => ?xnr, logicResult_row p fun k _ => ?coc, logicResult_row p fun k _ => ?czc⟩
  case msk => rw [BitVec.getLsbD_and, BitVec.getLsbD_not, decide_eq_true hk, Bool.true_and]
  case xnr =>
    rw [BitVec.getLsbD_not, BitVec.getLsbD_xor, decide_eq_true hk]
    cases s.getLsbD k <;> cases d.getLsbD k <;> rfl
  case coc =>
    rw [BitVec.getLsbD_xor, BitVec.getLsbD_and]
    cases s.getLsbD k <;> cases d.getLsbD k <;> rfl
  case czc =>
    rw [BitVec.getLsbD_xor, BitVec.getLsbD_or]
    cases s.getLsbD k <;> cases d.getLsbD k <;> rfl

/-! ### The decrement of DJZ (R215) -/

theorem sub_one_beq_zero (v : Word) : (v - 1 == 0) = decide (v = 1) := decide_eq_decide.2 sub_eq_zero

theorem aluDjz_psw (v p : Word) :
    (aluDjz v p).2 = withCVZS p (pswC p) (decide (v = 0x8000)) (decide (v = 1)) (v - 1).msb := by
  rw [← sub_one_beq_zero]
  rfl

/-! ### Computations that complete -/

section
variable {n : Nat} {f d : Operand} {ls ld : Loc} {sv dv : BitVec n} {s s1 s2 s3 s4 s5 t : State}

theorem twoReadWrite_ok {op : BitVec n → BitVec n → Word → BitVec n × Word}
    (hsv : readOperand n f s = .ok sv s1) (hld : locate d s1 = .ok ld s2) (hdv : readLoc n ld s2 = .ok dv s3)
    (hw : writeLoc n ld (op sv dv s3.psw).1 s3 = .ok () t) :
    twoReadWrite n op f d s = .ok () (t.setPsw (op sv dv s3.psw).2) := by
  rw [twoReadWrite, bind_of_ok hsv, bind_of_ok hld, bind_of_ok hdv, get_bind_apply, bind_of_ok hw]
  rfl

theorem twoReadOnly_ok {op : BitVec n → BitVec n → Word → BitVec n × Word}
    (hsv : readOperand n f s = .ok sv s1) (hdv : readOperand n d s1 = .ok dv t) :
    twoReadOnly n op f d s = .ok () (t.setPsw (op sv dv t.psw).2) := by
  rw [twoReadOnly, bind_of_ok hsv, bind_of_ok hdv]
  rfl

theorem moveOp_ok (hsv : readOperand n f s = .ok sv s1) (hld : locate d s1 = .ok ld s2)
    (hw : writeLoc n ld sv s2 = .ok () t) :
    moveOp n f d s = .ok () (t.setPsw (logicResult sv t.psw).2) := by
  rw [moveOp, bind_of_ok hsv, bind_of_ok hld, bind_of_ok hw]
  rfl

theorem exchangeOp_ok (hls : locate f s = .ok ls s1) (hsv : readLoc n ls s1 = .ok sv s2)
    (hld : locate d s2 = .ok ld s3) (hdv : readLoc n ld s3 = .ok dv s4) (hws : writeLoc n ls dv s4 = .ok () s5)
    (hwd : writeLoc n ld sv s5 = .ok () t) :
    exchangeOp n f d s = .ok () (t.setPsw (logicResult sv t.psw).2) := by
  rw [exchangeOp, bind_of_ok hls, bind_of_ok hsv, bind_of_ok hld, bind_of_ok hdv, bind_of_ok hws, bind_of_ok hwd]
  rfl

end

section
variable {f d : Operand} {ls ld : Loc} {sv dv v w : Word} {s s1 s2 s3 s4 t : State}

/-- The jump of DJZ comes after the new PSW, and is left out where the result is zero (R215). -/
theorem djzOp_ok (hls : locate f s = .ok ls s1) (hsv : readLoc 16 ls s1 = .ok sv s2)
    (hdv : readOperand 16 d s2 = .ok dv s3) (hw : writeLoc 16 ls (sv - 1) s3 = .ok () t) :
    djzOp f d s = .ok () { t with
      psw := (aluDjz sv s3.psw).2
      pc := if sv = 1 then t.pc else dv &&& 0xFFFE } := by
  have hw' : writeLoc 16 ls (aluDjz sv s3.psw).1 s3 = .ok () t := hw
  rw [djzOp, bind_of_ok hls, bind_of_ok hsv, bind_of_ok hdv, get_bind_apply, bind_of_ok hw']
  show doIf (!(sv - 1 == 0)) (modify fun t => t.setPc dv) (t.setPsw (aluDjz sv s3.psw).2) = _
  rw [doIf_apply, sub_one_beq_zero]
  by_cases hone : sv = 1 <;> simp only [hone] <;> rfl

theorem jsbOp_ok (hls : locate f s = .ok ls s1) (hlink : readLoc 16 ls s1 = .ok v s2)
    (hdv : readOperand 16 d s2 = .ok dv s3) (hw : writeLoc 16 ls s3.pc s3 = .ok () s4)
    (hpush : pstackWrite true ((s4.sp - 2) &&& 0xFFFE) v (s4.setSp (s4.sp - 2)) = .ok () t) :
    jsbOp f d s = .ok () (t.setPc dv) := by
  have hpush' : pushProgram v s4 = .ok () t := hpush
  rw [jsbOp, bind_of_ok hls, bind_of_ok hlink, bind_of_ok hdv, get_bind_apply, bind_of_ok hw, bind_of_ok hpush']
  rfl

theorem retOp_ok (hld : locate d s = .ok ld s1) (hv : readLoc 16 ld s1 = .ok v s2)
    (hpop : pstackRead true s2.sp (s2.setPc v) = .ok w s3) (hw : writeLoc 16 ld w s3 = .ok () t) :
    retOp d s = .ok () (t.setSp (t.sp + 2)) := by
  rw [retOp_apply hld hv, bind_of_ok hpop, bind_of_ok hw]
  rfl

end

/-! ### The obligations -/

/-- Settles O21: each list has one shape, and the logic instructions one way of setting the flags. -/
theorem twoOperandInstructions : Obligations.TwoOperandInstructions := by
  refine ⟨?wordTwo, ?byteTwo, ?wordCompare, ?byteCompare, fun n s d p _ => logic_rows s d p⟩
  case wordTwo =>
    exact fun q hq f d s sv s1 ld s2 dv s3 t hsv hld hdv hw =>
      (exec_wordTwo hq f d s).trans (runM_ok (twoReadWrite_ok hsv hld hdv hw))
  case byteTwo =>
    exact fun q hq f d s sv s1 ld s2 dv s3 t hsv hld hdv hw =>
      (exec_byteTwo hq f d s).trans (runM_ok (twoReadWrite_ok hsv hld hdv hw))
  case wordCompare =>
    exact fun q hq f d s sv s1 dv t hsv hdv =>
      (exec_wordCompare hq f d s).trans (runM_ok (twoReadOnly_ok hsv hdv))
  case byteCompare =>
    exact fun q hq f d s sv s1 dv t hsv hdv =>
      (exec_byteCompare hq f d s).trans (runM_ok (twoReadOnly_ok hsv hdv))

/-- Settles O23: both shapes set the flags of a logic result by the original source. -/
theorem moveAndExchange : Obligations.MoveAndExchange := by
  intro f d s
  refine ⟨?mov, ?movb, ?exc, ?excb⟩
  case mov => exact fun sv s1 ld s2 t hsv hld hw => runM_ok (moveOp_ok hsv hld hw)
  case movb => exact fun sv s1 ld s2 t hsv hld hw => runM_ok (moveOp_ok hsv hld hw)
  case exc =>
    exact fun ls s1 sv s2 ld s3 dv s4 s5 t hls hsv hld hdv hws hwd => runM_ok (exchangeOp_ok hls hsv hld hdv hws hwd)
  case excb =>
    exact fun ls s1 sv s2 ld s3 dv s4 s5 t hls hsv hld hdv hws hwd => runM_ok (exchangeOp_ok hls hsv hld hdv hws hwd)

/-- Settles O24: PSW and PC are the only fields DJZ sets after its write. -/
theorem djzInstruction : Obligations.DjzInstruction := by
  intro f d s ls s1 sv s2 dv s3 t hls hsv hdv hw
  exact ⟨_, runM_ok (djzOp_ok hls hsv hdv hw), aluDjz_psw sv s3.psw, rfl, rfl⟩

/-- Settles O25: JSB ends with its push and the jump, RET with the write of the word popped. -/
theorem subroutineInstructions : Obligations.SubroutineInstructions := by
  refine ⟨?jsb, ?ret⟩
  case jsb =>
    exact fun f d s ls s1 link s2 target s3 s4 t hls hlink htarget hw hpush =>
      runM_ok (jsbOp_ok hls hlink htarget hw hpush)
  case ret => exact fun d s ld s1 v s2 w s3 t hld hv hpop hw => runM_ok (retOp_ok hld hv hpop hw)

end Sys2Proof.Machine

/-! SUPPORT. The one-operand arithmetic and logic instructions (42_one_operand_arith.md): what they compute, how each
shape completes when its operand accesses succeed, and the obligations about them. -/

namespace Sys2Proof.Machine

/-! ### Signed values at the ends of the range (00_scope.md R10)

The overflow of a sum speaks of signed values, so the most negative and the most positive number, their neighbours and
the step 2 are each given by theirs. -/

section
variable {m : Nat}

theorem minSigned_eq_intMin : minSigned (m + 1) = BitVec.intMin (m + 1) :=
  BitVec.eq_of_toNat_eq ((BitVec.toNat_ofNat ..).trans BitVec.toNat_intMin.symm)

theorem maxSigned_eq_intMax : maxSigned (m + 1) = BitVec.intMax (m + 1) := by
  have hpos := Nat.two_pow_pos m
  exact BitVec.eq_of_toNat_eq
    ((Nat.mod_eq_of_lt (show 2 ^ m - 1 < 2 ^ (m + 1) by omega)).trans (BitVec.toNat_intMax (w := m + 1)).symm)

theorem neg_minSigned : -minSigned (m + 1) = minSigned (m + 1) := by
  rw [minSigned_eq_intMin, BitVec.neg_intMin]

theorem toInt_minSigned : (minSigned (m + 1)).toInt = -2 ^ m := by
  rw [minSigned_eq_intMin, BitVec.toInt_intMin_of_pos m.add_one_pos, Nat.add_sub_cancel]

theorem toInt_maxSigned : (maxSigned (m + 1)).toInt = 2 ^ m - 1 := by
  rw [maxSigned_eq_intMax, BitVec.toInt_intMax, Nat.add_sub_cancel]

theorem toInt_add_ofInt {a : BitVec (m + 1)} {z : Int} (hlow : -2 ^ m ≤ a.toInt + z) (hhigh : a.toInt + z < 2 ^ m) :
    (a + BitVec.ofInt (m + 1) z).toInt = a.toInt + z := by
  have hadd : a + BitVec.ofInt (m + 1) z = BitVec.ofInt (m + 1) (a.toInt + z) := by
    rw [BitVec.ofInt_add, BitVec.ofInt_toInt]
  rw [hadd, BitVec.toInt_ofInt_eq_self (Nat.succ_pos m) hlow hhigh]

theorem four_le_two_pow (hm : 2 ≤ m) : (4 : Int) ≤ 2 ^ m := pow_le_pow_right₀ (a := (2 : Int)) (by decide) hm

theorem toInt_minSigned_add_one (hm : 2 ≤ m) : (minSigned (m + 1) + 1).toInt = -2 ^ m + 1 := by
  have hpow := four_le_two_pow hm
  have hmin : (minSigned (m + 1)).toInt = -2 ^ m := toInt_minSigned
  have hadd := toInt_add_ofInt (a := minSigned (m + 1)) (z := 1) (by omega) (by omega)
  exact hadd.trans (by rw [hmin])

theorem toInt_maxSigned_sub_one (hm : 2 ≤ m) : (maxSigned (m + 1) - 1).toInt = 2 ^ m - 2 := by
  have hpow := four_le_two_pow hm
  have hmax : (maxSigned (m + 1)).toInt = 2 ^ m - 1 := toInt_maxSigned
  have hadd := toInt_add_ofInt (a := maxSigned (m + 1)) (z := -1) (by omega) (by omega)
  rw [BitVec.ofInt_neg, ← BitVec.sub_eq_add_neg] at hadd
  exact hadd.trans (by omega)

theorem toInt_two (hm : 2 ≤ m) : (2 : BitVec (m + 1)).toInt = 2 := by
  have hpow := four_le_two_pow hm
  exact BitVec.toInt_ofInt_eq_self (n := 2) (Nat.succ_pos m) (show -2 ^ m ≤ (2 : Int) by omega)
    (show (2 : Int) < 2 ^ m by omega)

end

/-! ### Carries and overflows of the small steps (R231, R234, R235, R240, R241) -/

section
variable {m : Nat} (d : BitVec (m + 1)) (c : Bool)

/-- The sum of NEG is the complement of `d` plus one. -/
theorem addSum_not_zero_true : addSum (~~~d) 0 true = -d := by
  rw [addSum_eq_add, BitVec.neg_eq_not_add]
  simp

theorem carryOut_comm (a b : BitVec m) : carryOut a b c = carryOut b a c := by
  rw [carryOut, carryOut, Nat.add_comm a.toNat]

/-- NEG subtracts `d` from 0, which borrows for every other `d`. -/
theorem not_carryOut_not_zero : (!carryOut (~~~d) 0 true) = decide (d ≠ 0) := by
  rw [carryOut_comm]
  exact (not_carryOut_not_eq 0 d false).trans (decide_eq_decide.2 (by simp [← BitVec.toNat_inj, Nat.pos_iff_ne_zero]))

/-- Nothing but the carry is added, so it goes out of ones only. -/
theorem carryOut_zero : carryOut d 0 c = (decide (d = BitVec.allOnes (m + 1)) && c) := by
  have hd := d.isLt
  rw [Bool.eq_iff_iff, carryOut_eq_true_iff, Bool.and_eq_true, decide_eq_true_iff, ← BitVec.toNat_inj,
    BitVec.toNat_allOnes]
  cases c with
  | false => simpa using hd
  | true => simp; omega

/-- All ones with the complement of the borrow take the borrow only, which goes out of zero only. -/
theorem not_carryOut_allOnes :
    (!carryOut d (BitVec.allOnes (m + 1)) (!c)) = (decide (d = 0) && c) := by
  rw [← BitVec.not_zero, not_carryOut_not_eq, Bool.eq_iff_iff, decide_eq_true_iff, Bool.and_eq_true, decide_eq_true_iff,
    ← BitVec.toNat_inj]
  cases c with
  | false => simp
  | true => simp

theorem addOverflow_two (hm : 2 ≤ m) :
    addOverflow d 2 false = decide (d = maxSigned (m + 1) ∨ d = maxSigned (m + 1) - 1) := by
  have hhigh : d.toInt < 2 ^ m := d.toInt_lt
  have hlow : -2 ^ m ≤ d.toInt := d.le_toInt
  rw [Bool.eq_iff_iff, decide_eq_true_iff, addOverflow_eq_true_iff, ← BitVec.toInt_inj, ← BitVec.toInt_inj,
    toInt_maxSigned, toInt_maxSigned_sub_one hm, toInt_two hm, Bool.toNat_false]
  omega

theorem addOverflow_not_two (hm : 2 ≤ m) :
    addOverflow d (~~~2) true = decide (d = minSigned (m + 1) ∨ d = minSigned (m + 1) + 1) := by
  have hhigh : d.toInt < 2 ^ m := d.toInt_lt
  have hlow : -2 ^ m ≤ d.toInt := d.le_toInt
  rw [Bool.eq_iff_iff, decide_eq_true_iff]
  refine (addOverflow_not_eq_true_iff d 2 false).trans ?_
  rw [← BitVec.toInt_inj, ← BitVec.toInt_inj, toInt_minSigned, toInt_minSigned_add_one hm, toInt_two hm,
    Bool.toNat_false]
  omega

/-- The carry in overflows at the top of the range only. -/
theorem addOverflow_zero : addOverflow d 0 c = (decide (d = maxSigned (m + 1)) && c) := by
  have hhigh : d.toInt < 2 ^ m := d.toInt_lt
  have hlow : -2 ^ m ≤ d.toInt := d.le_toInt
  rw [Bool.eq_iff_iff, Bool.and_eq_true, decide_eq_true_iff, addOverflow_eq_true_iff, ← BitVec.toInt_inj,
    toInt_maxSigned]
  cases c with
  | false => simp [hlow, hhigh]
  | true => simp; omega

/-- The borrow overflows at the bottom of the range only. -/
theorem addOverflow_allOnes :
    addOverflow d (BitVec.allOnes (m + 1)) (!c) = (decide (d = minSigned (m + 1)) && c) := by
  have hhigh : d.toInt < 2 ^ m := d.toInt_lt
  have hlow : -2 ^ m ≤ d.toInt := d.le_toInt
  rw [Bool.eq_iff_iff, Bool.and_eq_true, decide_eq_true_iff, ← BitVec.not_zero, addOverflow_not_eq_true_iff,
    ← BitVec.toInt_inj, toInt_minSigned]
  cases c with
  | false => simp [hlow, hhigh]
  | true => simp; omega

end

/-! ### Results and flags (R231 to R235, R239 to R241) -/

/-- The computation `x` gives `r`, C and V are `c` and `v`, Z and S are by `r`, and bits 15-4 of the PSW `p` stay. -/
def OneOperandRow {n : Nat} (p : Word) (x : BitVec n × Word) (r : BitVec n) (c v : Bool) : Prop :=
  x.1 = r ∧ pswC x.2 = c ∧ pswV x.2 = v ∧ pswZ x.2 = decide (r = 0) ∧ pswS x.2 = r.msb ∧
    x.2.extractLsb' 4 12 = p.extractLsb' 4 12

/-- Every one of them sets Z and S by its own sum; what is left to say is the sum, C and V. -/
theorem withCVZS_row {n : Nat} {r x : BitVec n} {c v c' v' : Bool} (p : Word) (hr : x = r) (hc : c' = c)
    (hv : v' = v) : OneOperandRow p (x, withCVZS p c' v' (x == 0) x.msb) r c v := by
  subst hr hc hv
  exact ⟨rfl, pswC_withCVZS .., pswV_withCVZS .., pswZ_withCVZS .., pswS_withCVZS .., extractLsb'_withCVZS ..⟩

section
variable {m : Nat} (d : BitVec (m + 1)) (p : Word)

theorem aluNeg_row : OneOperandRow p (aluNeg d p) (-d) (decide (d ≠ 0)) (decide (d = minSigned (m + 1))) := by
  refine withCVZS_row p (addSum_not_zero_true d) (not_carryOut_not_zero d) ?_
  rw [addSum_not_zero_true]
  exact decide_eq_decide.2 (by rw [neg_eq_iff_eq_neg, neg_minSigned])

theorem aluIct_row (hm : 2 ≤ m) : OneOperandRow p (aluIct d p) (d + 2) (pswC p)
    (decide (d = maxSigned (m + 1) ∨ d = maxSigned (m + 1) - 1)) :=
  withCVZS_row p ((addSum_eq_add d 2 false).trans (BitVec.add_zero _)) rfl (addOverflow_two d hm)

theorem aluDct_row (hm : 2 ≤ m) : OneOperandRow p (aluDct d p) (d - 2) (pswC p)
    (decide (d = minSigned (m + 1) ∨ d = minSigned (m + 1) + 1)) :=
  withCVZS_row p ((addSum_not_eq_sub d 2 false).trans (BitVec.sub_zero _)) rfl (addOverflow_not_two d hm)

theorem aluAdc_row : OneOperandRow p (aluAdc d p) (d + BitVec.ofNat (m + 1) (pswC p).toNat)
    (decide (d = BitVec.allOnes (m + 1)) && pswC p) (decide (d = maxSigned (m + 1)) && pswC p) :=
  withCVZS_row p (by rw [addSum_eq_add, add_zero]) (carryOut_zero d _) (addOverflow_zero d _)

theorem aluSb_row : OneOperandRow p (aluSb d p) (d - BitVec.ofNat (m + 1) (pswC p).toNat)
    (decide (d = 0) && pswC p) (decide (d = minSigned (m + 1)) && pswC p) :=
  withCVZS_row p (by rw [← BitVec.not_zero, addSum_not_eq_sub, BitVec.sub_zero]) (not_carryOut_allOnes d _)
    (addOverflow_allOnes d _)

theorem aluAbs_row :
    (aluAbs d p).1 = (if d.toInt < 0 then -d else d) ∧ pswC (aluAbs d p).2 = false ∧
      pswV (aluAbs d p).2 = decide (d = minSigned (m + 1)) ∧ pswZ (aluAbs d p).2 = decide (d = 0) ∧
      pswS (aluAbs d p).2 = decide (d = minSigned (m + 1)) ∧
      (aluAbs d p).2.extractLsb' 4 12 = p.extractLsb' 4 12 := by
  refine ⟨?result, pswC_withCVZS .., pswV_withCVZS .., pswZ_withCVZS .., pswS_withCVZS .., extractLsb'_withCVZS ..⟩
  case result => simp [aluAbs, BitVec.msb_eq_toInt, BitVec.neg_eq_not_add]

end

/-! ### CMT and SWB (R236, R244) -/

/-- A logic result is its own row: C stays and V is 0. -/
theorem logicResult_oneOperandRow {n : Nat} (r : BitVec n) (p : Word) :
    OneOperandRow p (logicResult r p) r (pswC p) false := withCVZS_row p rfl rfl rfl

theorem aluCmt_row {m : Nat} (d : BitVec (m + 1)) (p : Word) :
    (∀ k, k < m + 1 → (aluCmt d p).1.getLsbD k = !d.getLsbD k) ∧ pswC (aluCmt d p).2 = pswC p ∧
      pswV (aluCmt d p).2 = false ∧ pswZ (aluCmt d p).2 = decide (d = BitVec.allOnes (m + 1)) ∧
      pswS (aluCmt d p).2 = !d.getLsbD m ∧ (aluCmt d p).2.extractLsb' 4 12 = p.extractLsb' 4 12 := by
  have hbit : ∀ k, k < m + 1 → (~~~d).getLsbD k = !d.getLsbD k := fun k hk => by
    rw [BitVec.getLsbD_not, decide_eq_true hk, Bool.true_and]
  obtain ⟨-, hc, hv, hz, hs, hkept⟩ := logicResult_oneOperandRow (~~~d) p
  refine ⟨hbit, hc, hv, hz.trans (decide_eq_decide.2 ?zero), hs.trans ?sign, hkept⟩
  case zero => exact BitVec.not_eq_comm.trans (by rw [← BitVec.not_zero]; rfl)
  case sign => rw [BitVec.msb_eq_getLsbD_last]; exact hbit m (Nat.lt_succ_self m)

theorem aluSwb_getLsbD (w p : Word) {k : Nat} (hk : k < 8) :
    (aluSwb w p).1.getLsbD k = w.getLsbD (k + 8) ∧ (aluSwb w p).1.getLsbD (k + 8) = w.getLsbD k := by
  have happend : ∀ j, (aluSwb w p).1.getLsbD j =
      if j < 8 then (w.extractLsb' 8 8).getLsbD j else (w.extractLsb' 0 8).getLsbD (j - 8) :=
    fun j => BitVec.getLsbD_append (n := 8) (m := 8)
  rw [happend, happend, if_pos hk, if_neg (by omega)]
  simp [hk, Nat.add_comm]

/-- The two bytes of the result are those of the operand, so both words are 0 together. -/
theorem aluSwb_eq_zero_iff (w p : Word) : (aluSwb w p).1 = 0 ↔ w = 0 := by
  constructor
  · intro hzero
    have hlow : w.extractLsb' 0 8 = 0 :=
      BitVec.extractLsb'_append_eq_left.symm.trans (congrArg (·.extractLsb' 8 8) hzero)
    have hhigh : w.extractLsb' 8 8 = 0 :=
      BitVec.extractLsb'_append_eq_right.symm.trans (congrArg (·.extractLsb' 0 8) hzero)
    rw [← extractLsb'_append_bytes w, hlow, hhigh]
    rfl
  · rintro rfl
    rfl

theorem aluSwb_row (w p : Word) :
    (∀ k, k < 8 → (aluSwb w p).1.getLsbD k = w.getLsbD (k + 8) ∧ (aluSwb w p).1.getLsbD (k + 8) = w.getLsbD k) ∧
      pswC (aluSwb w p).2 = pswC p ∧ pswV (aluSwb w p).2 = false ∧ pswZ (aluSwb w p).2 = decide (w = 0) ∧
      pswS (aluSwb w p).2 = w.getLsbD 7 ∧ (aluSwb w p).2.extractLsb' 4 12 = p.extractLsb' 4 12 := by
  obtain ⟨-, hc, hv, hz, hs, hkept⟩ := logicResult_oneOperandRow (w.extractLsb' 0 8 ++ w.extractLsb' 8 8) p
  exact ⟨fun k hk => aluSwb_getLsbD w p hk, hc, hv, hz.trans (decide_eq_decide.2 (aluSwb_eq_zero_iff w p)),
    hs.trans (aluSwb_getLsbD w p (k := 7) (by decide)).2, hkept⟩

/-! ### STZ, STO and SXT (R237, R238, R243) -/

/-- The computation `x` gives `bit` in every bit, C stays, V is 0, Z is `z` and S is `bit`, and bits 15-4 of the PSW
`p` stay. -/
def StoreRow {n : Nat} (p : Word) (x : BitVec n × Word) (bit z : Bool) : Prop :=
  (∀ k, k < n → x.1.getLsbD k = bit) ∧ pswC x.2 = pswC p ∧ pswV x.2 = false ∧ pswZ x.2 = z ∧ pswS x.2 = bit ∧
    x.2.extractLsb' 4 12 = p.extractLsb' 4 12

section
variable {n : Nat} (p : Word)

theorem withVZS_storeRow {x : BitVec n} {bit : Bool} (z : Bool) (hbit : ∀ k, k < n → x.getLsbD k = bit) :
    StoreRow p (x, withVZS p false z bit) bit z :=
  ⟨hbit, pswC_withCVZS .., pswV_withCVZS .., pswZ_withCVZS .., pswS_withCVZS .., extractLsb'_withCVZS ..⟩

theorem aluStz_row : StoreRow p (aluStz p : BitVec n × Word) false true :=
  withVZS_storeRow p true fun _ _ => BitVec.getLsbD_zero

theorem aluSto_row : StoreRow p (aluSto p : BitVec n × Word) true false :=
  withVZS_storeRow p false fun k hk => by rw [BitVec.getLsbD_allOnes, decide_eq_true hk]

theorem aluSxt_row : StoreRow p (aluSxt p : BitVec n × Word) (pswS p) (!pswS p) := by
  refine withVZS_storeRow p (!pswS p) fun k hk => ?_
  cases pswS p with
  | false => exact BitVec.getLsbD_zero
  | true => exact (BitVec.getLsbD_allOnes ..).trans (decide_eq_true hk)

end

/-! ### Computations that complete (R230, R239, R242) -/

section
variable {n : Nat} {d : Operand} {ld : Loc} {dv : BitVec n} {s s1 s2 t : State}

theorem oneReadWrite_ok {op : BitVec n → Word → BitVec n × Word} (hld : locate d s = .ok ld s1)
    (hdv : readLoc n ld s1 = .ok dv s2) (hw : writeLoc n ld (op dv s2.psw).1 s2 = .ok () t) :
    oneReadWrite n op d s = .ok () (t.setPsw (op dv s2.psw).2) := by
  rw [oneReadWrite, bind_of_ok hld, bind_of_ok hdv, get_bind_apply, bind_of_ok hw]
  rfl

theorem oneReadOnly_ok {op : BitVec n → Word → BitVec n × Word} (hdv : readOperand n d s = .ok dv t) :
    oneReadOnly n op d s = .ok () (t.setPsw (op dv t.psw).2) := by
  rw [oneReadOnly, bind_of_ok hdv]
  rfl

theorem oneWriteOnly_ok {op : Word → BitVec n × Word} (hld : locate d s = .ok ld s1)
    (hw : writeLoc n ld (op s1.psw).1 s1 = .ok () t) :
    oneWriteOnly n op d s = .ok () (t.setPsw (op s1.psw).2) := by
  rw [oneWriteOnly, bind_of_ok hld, get_bind_apply, bind_of_ok hw]
  rfl

theorem aluAbs_fst_of_neg (p : Word) (hneg : dv.msb = true) : (aluAbs dv p).1 = -dv := by
  rw [aluAbs, hneg, if_pos rfl, BitVec.neg_eq_not_add]
  rfl

theorem oneWriteNegative_ok_of_nonneg (hld : locate d s = .ok ld s1) (hdv : readLoc n ld s1 = .ok dv s2)
    (hpos : dv.msb = false) : oneWriteNegative n aluAbs d s = .ok () (s2.setPsw (aluAbs dv s2.psw).2) := by
  have hskip : doIf dv.msb (writeLoc n ld (aluAbs dv s2.psw).1) s2 = .ok () s2 := by
    rw [doIf_apply, hpos]
    rfl
  rw [oneWriteNegative, bind_of_ok hld, bind_of_ok hdv, get_bind_apply, bind_of_ok hskip]
  rfl

theorem oneWriteNegative_ok_of_neg (hld : locate d s = .ok ld s1) (hdv : readLoc n ld s1 = .ok dv s2)
    (hneg : dv.msb = true) (hw : writeLoc n ld (-dv) s2 = .ok () t) :
    oneWriteNegative n aluAbs d s = .ok () (t.setPsw (aluAbs dv s2.psw).2) := by
  have hwrite : doIf dv.msb (writeLoc n ld (aluAbs dv s2.psw).1) s2 = .ok () t := by
    rw [doIf_apply, hneg, if_pos rfl, aluAbs_fst_of_neg s2.psw hneg, hw]
  rw [oneWriteNegative, bind_of_ok hld, bind_of_ok hdv, get_bind_apply, bind_of_ok hwrite]
  rfl

end

/-! ### The obligations -/

/-- Settles O19: INC, DCR and ABS test the operand itself; ICT, DCT, ADC and SB take V, NEG, ADC and SB take C from
their sum. -/
theorem oneOperandArithmetic : Obligations.OneOperandArithmetic := by
  intro n d p hn
  obtain ⟨m, rfl⟩ : ∃ m, n = m + 1 := ⟨n - 1, by omega⟩
  have hm : 2 ≤ m := by omega
  exact ⟨aluNeg_row d p, withCVZS_row p rfl rfl rfl, withCVZS_row p rfl rfl rfl, aluIct_row d p hm, aluDct_row d p hm,
    aluAdc_row d p, aluSb_row d p, aluAbs_row d p⟩

/-- Settles O26: each list has one shape; CMT and SWB are logic results. -/
theorem oneOperandInstructions : Obligations.OneOperandInstructions := by
  refine ⟨?wordOne, ?byteOne, ?bits⟩
  case wordOne =>
    exact fun q hq d s ld s1 dv s2 t hld hdv hw => (exec_wordOne hq d s).trans (runM_ok (oneReadWrite_ok hld hdv hw))
  case byteOne =>
    exact fun q hq d s ld s1 dv s2 t hld hdv hw => (exec_byteOne hq d s).trans (runM_ok (oneReadWrite_ok hld hdv hw))
  case bits =>
    intro n d w p hn
    obtain ⟨m, rfl⟩ : ∃ m, n = m + 1 := ⟨n - 1, by omega⟩
    obtain ⟨hbit, hc, hv, hz, hs, hkept⟩ := aluCmt_row d p
    exact ⟨hbit, hc, hv, hz, hs, hkept, aluSwb_row w p⟩

/-- Settles O27: ABS skips its write exactly where the sign bit of the operand is clear. -/
theorem storeCompareAbs : Obligations.StoreCompareAbs := by
  refine ⟨fun n p _ => ⟨aluStz_row p, aluSto_row p, aluSxt_row p⟩, fun d s => ?_⟩
  refine ⟨?wordStore, ?byteStore, ?cpz, ?cpzb, ?abs, ?absb⟩
  case wordStore =>
    exact fun q hq ld s1 t hld hw => (exec_wordStore hq d s).trans (runM_ok (oneWriteOnly_ok hld hw))
  case byteStore =>
    exact fun q hq ld s1 t hld hw => (exec_byteStore hq d s).trans (runM_ok (oneWriteOnly_ok hld hw))
  case cpz => exact fun dv t hdv => runM_ok (oneReadOnly_ok (op := aluCpz) hdv)
  case cpzb => exact fun dv t hdv => runM_ok (oneReadOnly_ok (op := aluCpz) hdv)
  case abs =>
    exact fun ld s1 dv s2 hld hdv => ⟨fun hpos => runM_ok (oneWriteNegative_ok_of_nonneg hld hdv hpos),
      fun t hneg hw => runM_ok (oneWriteNegative_ok_of_neg hld hdv hneg hw)⟩
  case absb =>
    exact fun ld s1 dv s2 hld hdv => ⟨fun hpos => runM_ok (oneWriteNegative_ok_of_nonneg hld hdv hpos),
      fun t hneg hw => runM_ok (oneWriteNegative_ok_of_neg hld hdv hneg hw)⟩

end Sys2Proof.Machine

/-! SUPPORT. The shifts and rotates by one bit (43_shift_rotate.md): each bit of the shifted value, which bit enters and
which C comes out for every rule, the flags of the two shapes, and the obligation about them. -/

namespace Sys2Proof.Machine

/-! ### The bits of a shifted value -/

section
variable {n k : Nat} (b : Bool) (d : BitVec n)

theorem getLsbD_setWidth_ofBool (hk : k < n) : ((BitVec.ofBool b).setWidth n).getLsbD k = (decide (k = 0) && b) := by
  simp [BitVec.getLsbD_ofBool, hk]

/-- The two parts do not meet: the shifted word is clear at the top, the entering bit is clear below it. -/
theorem getLsbD_shiftRight (hk : k < n) :
    (shiftRight b d).getLsbD k = if k = n - 1 then b else d.getLsbD (k + 1) := by
  rw [shiftRight, BitVec.getLsbD_or, BitVec.getLsbD_ushiftRight, BitVec.getLsbD_shiftLeft, Nat.add_comm 1,
    getLsbD_setWidth_ofBool b (by omega), decide_eq_true hk]
  split
  case isTrue htop => simp [htop, BitVec.getLsbD_of_ge d (n - 1 + 1) (by omega)]
  case isFalse hbelow => simp [show k < n - 1 by omega]

theorem getLsbD_shiftLeft (hk : k < n) :
    (shiftLeft b d).getLsbD k = if k = 0 then b else d.getLsbD (k - 1) := by
  rw [shiftLeft, BitVec.getLsbD_or, BitVec.getLsbD_shiftLeft, getLsbD_setWidth_ofBool b hk, decide_eq_true hk]
  split
  case isTrue hbottom => simp [hbottom]
  case isFalse habove => simp [habove, show ¬ k < 1 by omega]

end

/-! ### The nine rules (R262 to R279)

Each rule is one of the two shifts; a row names the rule, the bit that enters and the new C. -/

section
variable {n : Nat} (d : BitVec n) (c : Bool)

/-- The rules to the right (R262 to R266). -/
def rightShifts : List (ShiftRule n × Bool × Bool) :=
  [(shSld, false, c), (shSdc, c, false), (shRdc, c, d.getLsbD 0), (shSad, d.getLsbD (n - 1), c),
    (shRtd, d.getLsbD 0, c)]

/-- The rules to the left (R272 to R275). -/
def leftShifts : List (ShiftRule n × Bool × Bool) :=
  [(shSle, false, c), (shSec, false, d.getLsbD (n - 1)), (shRec, c, d.getLsbD (n - 1)), (shRte, d.getLsbD (n - 1), c)]

/-- The model asks for bit N-1 of the operand as its `msb`. -/
theorem rightShifts_apply : ∀ row ∈ rightShifts d c, row.1 d c = (shiftRight row.2.1 d, row.2.2) := by
  simp only [rightShifts, List.forall_mem_cons, ← BitVec.msb_eq_getLsbD_last]
  exact ⟨rfl, rfl, rfl, rfl, rfl, List.forall_mem_nil _⟩

theorem leftShifts_apply : ∀ row ∈ leftShifts d c, row.1 d c = (shiftLeft row.2.1 d, row.2.2) := by
  simp only [leftShifts, List.forall_mem_cons, ← BitVec.msb_eq_getLsbD_last]
  exact ⟨rfl, rfl, rfl, rfl, List.forall_mem_nil _⟩

variable {d c} {k : Nat} {f : ShiftRule n} {b e : Bool}

theorem getLsbD_rightShift (hk : k < n) (hrow : (f, b, e) ∈ rightShifts d c) :
    (f d c).1.getLsbD k = (if k = n - 1 then b else d.getLsbD (k + 1)) ∧ (f d c).2 = e := by
  have happly : f d c = (shiftRight b d, e) := rightShifts_apply d c _ hrow
  rw [happly]
  exact ⟨getLsbD_shiftRight b d hk, rfl⟩

theorem getLsbD_leftShift (hk : k < n) (hrow : (f, b, e) ∈ leftShifts d c) :
    (f d c).1.getLsbD k = (if k = 0 then b else d.getLsbD (k - 1)) ∧ (f d c).2 = e := by
  have happly : f d c = (shiftLeft b d, e) := leftShifts_apply d c _ hrow
  rw [happly]
  exact ⟨getLsbD_shiftLeft b d hk, rfl⟩

end

/-! ### The flags (R260, R261) -/

theorem aluShift_row {n : Nat} (f : ShiftRule n) (d : BitVec n) (p : Word) :
    OneOperandRow p (aluShift f d p) (f d (pswC p)).1 (f d (pswC p)).2 false := withCVZS_row p rfl rfl rfl

/-- The high word of a long word is 0 exactly where its value fits in the low word. -/
theorem highWord_beq_zero (v : Long) : (v.extractLsb' 16 16 == 0) = decide (v.toNat < 65536) := by
  have hv := v.isLt
  refine decide_eq_decide.2 ?_
  rw [← BitVec.toNat_inj, BitVec.extractLsb'_toNat, Nat.shiftRight_eq_div_pow,
    show (0 : Word).toNat = 0 from rfl]
  omega

theorem pswZ_aluLongShift (f : ShiftRule 32) (d : Long) (p : Word) :
    pswZ (aluLongShift f d p).2 = decide ((f d (pswC p)).1.toNat < 65536) :=
  (pswZ_withCVZS ..).trans (highWord_beq_zero _)

/-! ### The obligation -/

/-- Settles O20: the bits hold at every width, and so do the flags of a byte or word shift. -/
theorem shiftsBitByBit : Obligations.ShiftsBitByBit := by
  refine ⟨?bits, ?short, ?long⟩
  case bits =>
    exact fun n d c k _ hk =>
      ⟨fun f b e hrow => getLsbD_rightShift hk hrow, fun f b e hrow => getLsbD_leftShift hk hrow⟩
  case short =>
    intro n f d p _
    obtain ⟨hresult, hc, hv, hz, hs, hkept⟩ := aluShift_row f d p
    exact ⟨hresult, hc, hv, hz, hs.trans (BitVec.msb_eq_getLsbD_last _), hkept⟩
  case long =>
    exact fun f d p => ⟨rfl, pswC_withCVZS .., pswV_withCVZS .., pswZ_aluLongShift f d p,
      (pswS_withCVZS ..).trans (BitVec.msb_eq_getLsbD_last _), extractLsb'_withCVZS ..⟩

end Sys2Proof.Machine

/-! SUPPORT. The control instructions with one operand (44_one_operand_control.md): how the loads and stores of special
registers and SFGMB complete, the bits of the ASTROM condition byte, and the obligations about them. -/

namespace Sys2Proof.Machine

/-! ### Special registers (R302 to R310) -/

section
variable {d : Operand} {ld : Loc} {v : Word} {s s1 t : State}

theorem loadSpecial_ok {upd : Word → State → State} (hv : readOperand 16 d s = .ok v t) :
    loadSpecial upd d s = .ok () (upd v t) := by
  rw [loadSpecial, bind_of_ok hv]
  rfl

theorem storeSpecial_ok {reg : State → Word} (hld : locate d s = .ok ld s1)
    (hw : writeLoc 16 ld (reg s1) s1 = .ok () t) : storeSpecial reg d s = .ok () t := by
  rw [storeSpecial, bind_of_ok hld, get_bind_apply, hw]

end

/-! ### The byte of ASTROM condition codes (R311) -/

theorem codesByte_eq_concat (k : AstromCodes) (up : Bool) : codesByte k up =
    (((((((BitVec.ofBool (!(k.cver || k.undf || k.ovfl || k.divz))).concat k.cver).concat k.undf).concat
      k.ovfl).concat k.divz).concat k.supf).concat k.zupf).concat up := rfl

theorem codesByte_bits (k : AstromCodes) (up : Bool) :
    (codesByte k up).getLsbD 0 = up ∧ (codesByte k up).getLsbD 1 = k.zupf ∧ (codesByte k up).getLsbD 2 = k.supf ∧
    (codesByte k up).getLsbD 3 = k.divz ∧ (codesByte k up).getLsbD 4 = k.ovfl ∧
    (codesByte k up).getLsbD 5 = k.undf ∧ (codesByte k up).getLsbD 6 = k.cver ∧
    (codesByte k up).getLsbD 7 = !(k.cver || k.undf || k.ovfl || k.divz) := by
  simp [codesByte_eq_concat]

theorem getLsbD_append_zero {n : Nat} (x : BitVec n) : (x ++ 0#1).getLsbD 0 = false := by
  rw [BitVec.getLsbD_append, if_pos Nat.one_pos, BitVec.getLsbD_zero]

/-! ### SFGMB (R311, R380) -/

section
variable {d : Operand} {ld : Loc} {s s1 t : State}

/-- Locating an operand does not reach the condition codes of the ASTROM. -/
theorem OperandOnly.mf (h : OperandOnly s s1) : s1.mf = s.mf := by rw [h.same]

/-- The codes and the switch are read after the operand is located, and are still those of the start. -/
theorem sfgmbOp_on_ok (hld : locate d s = .ok ld s1) (hup : s.upfok = true)
    (hw : writeLoc 8 ld (codesByte s.mf true) s1 = .ok () t) : sfgmbOp d s = .ok () t := by
  have hloc : OperandOnly s s1 := keepsAt_ok (locate_operandOnly d s) hld
  rw [sfgmbOp, bind_of_ok hld, get_bind_apply, hloc.unit.1, hup, if_pos rfl, hloc.mf, hw]

theorem sfgmbOp_off_ok (hld : locate d s = .ok ld s1) (hup : s.upfok = false)
    (hw : writeLoc 8 ld (Config.sfgmbAbsent s1.freeCount ++ 0#1) { s1 with freeCount := s1.freeCount + 1 } =
      .ok () t) : sfgmbOp d s = .ok () t := by
  have hloc : OperandOnly s s1 := keepsAt_ok (locate_operandOnly d s) hld
  rw [sfgmbOp, bind_of_ok hld, get_bind_apply, hloc.unit.1, hup, if_neg Bool.false_ne_true]
  exact hw

end

/-! ### The obligations -/

/-- Settles O29: the registers are loaded by their setters, which hold the stuck bits; a store takes the register after
the operand is located. -/
theorem controlRegisterInstructions : Obligations.ControlRegisterInstructions := by
  intro d s
  refine ⟨?load, ?store⟩
  case load =>
    intro v t hv
    have hload (upd : Word → State → State) : runM (loadSpecial upd d) s = .next (upd v t) :=
      runM_ok (loadSpecial_ok hv)
    exact ⟨hload fun v t => t.setPc v, hload fun v t => t.setLp v, hload fun v t => t.setMk v,
      hload fun v t => t.setMk (t.imk &&& ~~~v), hload fun v t => t.setMk (t.imk ||| v), hload fun v t => t.setSps v⟩
  case store =>
    intro ld s1 t hld
    have hstore (reg : State → Word) (hw : writeLoc 16 ld (reg s1) s1 = .ok () t) :
        runM (storeSpecial reg d) s = .next t := runM_ok (storeSpecial_ok hld hw)
    exact ⟨hstore fun t => t.lp, hstore fun t => t.imk, hstore fun t => t.sps⟩

/-- Settles O30: on, the byte is that of the codes; off, the free value is above a bit 0 that is 0. -/
theorem sfgmbInstruction : Obligations.SfgmbInstruction := by
  intro d s ld s1 hld
  refine ⟨fun hon => ?on, fun hoff => ?off⟩
  case on =>
    exact ⟨codesByte s.mf true, codesByte_bits s.mf true, fun t hw => runM_ok (sfgmbOp_on_ok hld hon hw)⟩
  case off =>
    exact ⟨Config.sfgmbAbsent s1.freeCount ++ 0#1, getLsbD_append_zero _,
      fun t hw => runM_ok (sfgmbOp_off_ok hld hoff hw)⟩

end Sys2Proof.Machine

/-! SUPPORT. The zero-operand instructions (45_zero_operand.md): the pops and pushes that EXS, RTT and RTI make on the
system stack, the six pushes of SRG and the six pops of CRG inside the limits, and the obligations about them. -/

namespace Sys2Proof.Machine

/-! ### Pops and pushes on the system stack (20_memory.md R81) -/

/-- The model's RAM is plain memory, which reads also reach (20_memory.md R85). -/
theorem memoryAt_of_ramAt {s : State} {pa : Word} (h : s.ramAt pa = true) : s.memoryAt pa = true :=
  Bool.or_eq_true_iff.2 (.inl h)

theorem popSystem_memory {s : State} (hc : s.calm) (heven : s.sps.getLsbD 0 = false) (htop : s.sps.toNat ≤ 0xF7FF)
    (hlp : s.lp.toNat ≤ s.sps.toNat) (hm : s.memoryAt s.sps = true) :
    popSystem s = .ok (s.mem.read true s.sps) { s with sps := s.sps + 2 } := by
  have hread : sstackRead s.sps s = .ok (s.mem.read true s.sps) s := by
    rw [sstackRead_inside (outsideStack_eq_false htop hlp) heven, haltOnTrap_ok (busRead_memory hc hm)]
  rw [popSystem, get_bind_apply, bind_of_ok hread, bind_of_ok (modify_apply ..), pure_apply, State.setSps,
    mask_of_even (even_add_two heven)]

/-- A pop outside the limits stops the CPU before SPS moves. -/
theorem popSystem_outside {s : State} (h : 0xF7FF < s.sps.toNat ∨ s.sps.toNat < s.lp.toNat) :
    popSystem s = .error .halt s := by
  have hread : sstackRead s.sps s = .error .halt s := by
    rw [sstackRead, get_bind_apply, outsideStack_eq_true h.symm]
    rfl
  rw [popSystem, get_bind_apply, bind_of_error hread]

/-- A push to a given address inside the limits; `stored` is the model's note of the program's stores (log 7). -/
theorem pushSystem_at {s : State} {a : Word} (own : Bool) (v : Word) (hc : s.calm) (hsps : s.sps - 2 = a)
    (heven : a.getLsbD 0 = false) (htop : a.toNat ≤ 0xF7FF) (hlp : s.lp.toNat ≤ a.toNat) (hram : s.ramAt a = true) :
    ∃ st, pushSystem own v s = .ok () { s with sps := a, mem := s.mem.write true a v, stored := st } := by
  have hset : s.setSps a = { s with sps := a } := by rw [State.setSps, mask_of_even heven]
  have hin : State.outsideStack { s with sps := a } a = false := outsideStack_eq_false htop hlp
  refine ⟨(s.store own true a v).stored, ?_⟩
  rw [pushSystem_apply, hsps, hset, sstackWrite_inside hin heven]
  exact haltOnTrap_ok (busWrite_ram (hc.congr rfl rfl rfl) hram)

/-! ### RTT, RTI and EXS on a stack with two words (R325 to R327) -/

section
variable {s : State} (h : s.returnRoom)
include h

theorem popPsw_room : popSystem s = .ok (s.mem.read true s.sps) { s with sps := s.sps + 2 } := by
  have htop := h.sps_top
  exact popSystem_memory h.calm h.sps_even (by omega) h.above_lp h.mem_psw

/-- RTT has loaded the PSW when it pops PC, EXS has not. -/
theorem popPc_room (p : Word) : popSystem { s with psw := p, sps := s.sps + 2 } =
    .ok (s.mem.read true (s.sps + 2)) { s with psw := p, sps := s.sps + 4 } := by
  have htop := h.sps_top
  have hlp := h.above_lp
  have hfour : s.sps + 2 + 2 = s.sps + 4 := by bv_omega
  rw [← hfour]
  exact popSystem_memory (s := { s with psw := p, sps := s.sps + 2 }) (h.calm.congr rfl rfl rfl)
    (even_add_two h.sps_even) (show (s.sps + 2).toNat ≤ 0xF7FF by bv_omega)
    (show s.lp.toNat ≤ (s.sps + 2).toNat by bv_omega) h.mem_pc

theorem returnEntry_room : returnEntry s = .ok () { s with
    psw := s.mem.read true s.sps, pc := s.mem.read true (s.sps + 2) &&& 0xFFFE, sps := s.sps + 4 } := by
  rw [returnEntry, bind_of_ok (popPsw_room h), bind_of_ok (modify_apply ..)]
  exact (bind_of_ok (popPc_room h _)).trans (modify_apply ..)

/-- EXS pushes where it popped, so SPS is where it was. -/
theorem exchangeEntry_room (hpsw : s.ramAt s.sps = true) (hpc : s.ramAt (s.sps + 2) = true) :
    ∃ st, exchangeEntry s = .ok () { s with
      psw := s.mem.read true s.sps, pc := s.mem.read true (s.sps + 2) &&& 0xFFFE
      mem := (s.mem.write true (s.sps + 2) s.pc).write true s.sps s.psw, stored := st } := by
  have htop := h.sps_top
  have hlp := h.above_lp
  obtain ⟨st, hpush⟩ := pushSystem_at (s := { s with sps := s.sps + 4 }) (a := s.sps + 2) true s.pc
    (h.calm.congr rfl rfl rfl) (show s.sps + 4 - 2 = s.sps + 2 by bv_omega) (even_add_two h.sps_even) (by bv_omega)
    (show s.lp.toNat ≤ (s.sps + 2).toNat by bv_omega) hpc
  obtain ⟨st', hpush'⟩ := pushSystem_at (a := s.sps) true s.psw
    (s := { s with sps := s.sps + 2, mem := s.mem.write true (s.sps + 2) s.pc, stored := st })
    (h.calm.congr rfl rfl rfl) (show s.sps + 2 - 2 = s.sps by bv_omega) h.sps_even (by omega) hlp hpsw
  refine ⟨st', ?_⟩
  rw [exchangeEntry, bind_of_ok (popPsw_room h), bind_of_ok (popPc_room h s.psw), get_bind_apply, bind_of_ok hpush]
  exact (bind_of_ok hpush').trans (modify_apply ..)

end

/-! ### What an entry leaves to be popped (60_exceptions.md R450) -/

/-- The word at an even address and the one after it, written from above, both read back. -/
theorem read_two_words {m : Memory} (hm : m.wf = true) {a : Word} (heven : a.getLsbD 0 = false)
    (hlast : a.toNat ≤ 0xFFFC) (p q : Word) : ((m.write true (a + 2) q).write true a p).read true a = p ∧
      ((m.write true (a + 2) q).write true a p).read true (a + 2) = q :=
  ⟨read_write_same (wf_write hm) a p,
    (read_write_below heven (by bv_omega) (by bv_omega)).trans (read_write_same hm (a + 2) q)⟩

theorem sub_four_add_two (v : Word) : v - 4 + 2 = v - 2 := by bv_omega

theorem even_sub_four {v : Word} (h : v.getLsbD 0 = false) : (v - 4).getLsbD 0 = false :=
  sub_two_sub_two v ▸ even_sub_two (even_sub_two h)

section
variable {s : State} {vec : Word} (h : s.entryRoom vec) (savedPc : Word)
include h

/-- On top of the system stack lie the PSW and, above it, the PC of before the entry. -/
theorem entryState_words : (entryState savedPc vec s).mem.read true (s.sps - 4) = s.psw ∧
    (entryState savedPc vec s).mem.read true (s.sps - 4 + 2) = savedPc := by
  have hfour := h.sps_four
  have htop := h.sps_top
  rw [entryState, ← sub_four_add_two]
  exact read_two_words h.mem_wf (even_sub_four h.sps_even) (by bv_omega) s.psw savedPc

theorem entryState_returnRoom : (entryState savedPc vec s).returnRoom := by
  have hfour := h.sps_four
  have htop := h.sps_top
  have hlp := h.above_lp
  refine ⟨h.calm.congr rfl rfl rfl, even_sub_four h.sps_even, ?_, ?_, memoryAt_of_ramAt h.ram_psw, ?_⟩
  · show (s.sps - 4).toNat ≤ _
    bv_omega
  · show s.lp.toNat ≤ (s.sps - 4).toNat
    bv_omega
  · show s.memoryAt (s.sps - 4 + 2) = true
    rw [sub_four_add_two]
    exact memoryAt_of_ramAt h.ram_pc

/-- A return right after an entry pops the words that the entry pushed, and SPS is where it was. -/
theorem returnEntry_entryState : returnEntry (entryState savedPc vec s) = .ok () { entryState savedPc vec s with
    psw := s.psw, pc := savedPc &&& 0xFFFE, sps := s.sps } := by
  obtain ⟨hpsw, hpc⟩ := entryState_words h savedPc
  have hsps : (entryState savedPc vec s).sps = s.sps - 4 := rfl
  rw [returnEntry_room (entryState_returnRoom h savedPc), hsps, hpsw, hpc, BitVec.sub_add_cancel]

end

/-! ### SRG inside the limits (R329) -/

/-- The next `k` pushes from this state are inside the limits and go to RAM. -/
structure PushesInside (k : Nat) (s : State) : Prop where
  calm : s.calm
  mem_wf : s.mem.wf = true
  sp_even : s.sp.getLsbD 0 = false
  inside : ∀ j, j < k → s.lp.toNat ≤ (pushSlot s.sp j).toNat ∧ (pushSlot s.sp j).toNat ≤ 0xF7FF ∧
    s.ramAt (pushSlot s.sp j) = true

theorem PushesInside.pushed {k : Nat} {s : State} (h : PushesInside (k + 1) s) (v : Word) :
    PushesInside k (s.pushed v) := by
  have hsp := pushed_sp h.sp_even v
  refine ⟨h.calm.congr rfl rfl rfl, pushed_mem s v ▸ wf_write h.mem_wf, hsp ▸ even_sub_two h.sp_even, fun j hj => ?_⟩
  rw [hsp, ← pushSlot_succ]
  exact h.inside (j + 1) (Nat.succ_lt_succ hj)

/-- `Pushed` speaks of the state in which SP is lowered for one more push, so that is done to the state left. -/
theorem pushAll_inside {vs : List Word} {s : State} (hfew : vs.length ≤ 6) (h : PushesInside vs.length s) :
    ∃ u, pushAll vs s = .ok () u ∧ u.sp.getLsbD 0 = false ∧ Pushed vs vs.length s (u.setSp (u.sp - 2)) := by
  induction vs generalizing s with
  | nil =>
    have hsp : (s.setSp (s.sp - 2)).sp = pushSlot s.sp 0 := by
      rw [setSp_sp, mask_of_even (even_sub_two h.sp_even), pushSlot_zero]
    exact ⟨s, rfl, h.sp_even, hsp, nofun, fun _ _ => rfl, rfl⟩
  | cons v vs ih =>
    obtain ⟨hlp, htop, hram⟩ := pushSlot_zero s.sp ▸ h.inside 0 (Nat.succ_pos _)
    obtain ⟨u, hu, heven, hpushed⟩ := ih (Nat.le_of_succ_le hfew) (h.pushed v)
    exact ⟨u, (bind_of_ok (pushProgram_ram v h.calm h.sp_even hlp htop hram)).trans hu, heven,
      hpushed.cons h.sp_even h.mem_wf (Nat.lt_of_succ_le hfew)⟩

theorem pushSlot_eq_sub (sp : Word) (j : Nat) : pushSlot sp j = sp - BitVec.ofNat 16 (2 * j + 2) := by
  unfold pushSlot
  bv_omega

theorem pushesInside_of_frameAt {s : State} (h : s.frameAt (s.sp - 12)) : PushesInside 6 s := by
  have htop := h.top
  have hlp := h.above_lp
  have heven : s.sp.getLsbD 0 = false := by
    have := h.even
    rw [getLsbD_zero_eq_false_iff] at *
    bv_omega
  refine ⟨h.calm, h.mem_wf, heven, fun j hj => ?_⟩
  have hslot : pushSlot s.sp j = s.sp - 12 + 2 * BitVec.ofNat 16 (5 - j) := by unfold pushSlot; bv_omega
  have hram := h.ram (5 - j) (by omega)
  rw [← hslot] at hram
  exact ⟨by bv_omega, by bv_omega, hram⟩

/-- SRG leaves the last word pushed lowest, and SP at it. -/
theorem saveRegisters_room {s : State} (h : s.frameAt (s.sp - 12)) :
    ∃ u, saveRegisters s = .ok () u ∧ u.sp = s.sp - 12 ∧
      (∀ j, j < 6 → u.mem.read true (s.sp - BitVec.ofNat 16 (2 * j + 2)) =
        [s.rf, s.re, s.rd, s.rc, s.rb, s.ra].getD j 0) ∧
      (∀ a, a < s.sp.toNat - 12 ∨ s.sp.toNat ≤ a → u.mem.readByte a = s.mem.readByte a) ∧
      u = { s with sp := u.sp, mem := u.mem, stored := u.stored } := by
  obtain ⟨u, hu, heven, hsp, hword, hbyte, hsame⟩ :=
    pushAll_inside (vs := [s.rf, s.re, s.rd, s.rc, s.rb, s.ra]) le_rfl (pushesInside_of_frameAt h)
  refine ⟨u, (saveRegisters_apply s).trans hu, ?_, fun j hj => ?_, fun a ha => hbyte a fun j hj => ?_,
    congrArg (fun t => { t with sp := u.sp }) hsame⟩
  · rw [setSp_sp, mask_of_even (even_sub_two heven), pushSlot_eq_sub] at hsp
    simp only [List.length_cons, List.length_nil] at hsp
    bv_omega
  · rw [← pushSlot_eq_sub]
    exact hword j hj
  · have hj : j < 6 := hj
    have htop := h.top
    rw [pushSlot_eq_sub]
    bv_omega

/-! ### CRG inside the limits (R330) -/

/-- The next `k` pops from this state are inside the limits and read memory. -/
structure PopsInside (k : Nat) (s : State) : Prop where
  calm : s.calm
  sp_even : s.sp.getLsbD 0 = false
  inside : ∀ j, j < k → s.lp.toNat ≤ (popSlot s.sp j).toNat ∧ (popSlot s.sp j).toNat ≤ 0xF7FF ∧
    s.memoryAt (popSlot s.sp j) = true

theorem PopsInside.popped {k : Nat} {s : State} (h : PopsInside (k + 1) s) (r : GReg) : PopsInside k (s.popped r) := by
  have hsp := popped_sp h.sp_even r
  obtain ⟨ra, rb, rc, rd, re, rf, sp, hsame⟩ := popped_same s r
  refine ⟨h.calm.congr (by rw [hsame]) (by rw [hsame]) (by rw [hsame]), hsp ▸ even_add_two h.sp_even, fun j hj => ?_⟩
  rw [hsp, ← popSlot_succ, hsame]
  exact h.inside (j + 1) (Nat.succ_lt_succ hj)

theorem popAll_inside {rs : List GReg} {s : State} (hrs : rs.Nodup) (h : PopsInside rs.length s) :
    ∃ u, popAll rs s = .ok () u ∧ Popped rs rs.length s u := by
  induction rs generalizing s with
  | nil => exact ⟨s, rfl, (popSlot_zero _).symm, nofun, fun _ _ => rfl, rfl⟩
  | cons r rs ih =>
    obtain ⟨hr, hrs⟩ := List.nodup_cons.1 hrs
    obtain ⟨hlp, htop, hm⟩ := popSlot_zero s.sp ▸ h.inside 0 (Nat.succ_pos _)
    obtain ⟨u, hu, hpopped⟩ := ih hrs (h.popped r)
    exact ⟨u, (bind_of_ok (popToReg_memory r h.calm hlp htop hm)).trans hu, hpopped.cons h.sp_even hr⟩

theorem popsInside_of_frameAt {s : State} (h : s.frameAt s.sp) : PopsInside 6 s := by
  have htop := h.top
  have hlp := h.above_lp
  refine ⟨h.calm, h.even, fun j hj => ?_⟩
  have hslot : (popSlot s.sp j).toNat = s.sp.toNat + 2 * j := by unfold popSlot; bv_omega
  exact ⟨by omega, by omega, memoryAt_of_ramAt (h.ram j hj)⟩

/-- CRG loads the registers upwards from SP. -/
theorem restoreRegisters_room {s : State} (h : s.frameAt s.sp) : restoreRegisters s = .ok () { s with
    ra := s.mem.read true s.sp, rb := s.mem.read true (s.sp + 2), rc := s.mem.read true (s.sp + 4)
    rd := s.mem.read true (s.sp + 6), re := s.mem.read true (s.sp + 8), rf := s.mem.read true (s.sp + 10)
    sp := s.sp + 12 } := by
  obtain ⟨u, hu, hsp, hloaded, -, hsame⟩ :=
    popAll_inside (rs := [.ra, .rb, .rc, .rd, .re, .rf]) (by decide) (popsInside_of_frameAt h)
  have ha : u.ra = s.mem.read true s.sp := (hloaded 0 .ra rfl).trans (by rw [popSlot_zero]; rfl)
  have hb : u.rb = s.mem.read true (s.sp + 2) := hloaded 1 .rb rfl
  have hc : u.rc = s.mem.read true (s.sp + 4) := hloaded 2 .rc rfl
  have hd : u.rd = s.mem.read true (s.sp + 6) := hloaded 3 .rd rfl
  have he : u.re = s.mem.read true (s.sp + 8) := hloaded 4 .re rfl
  have hf : u.rf = s.mem.read true (s.sp + 10) := hloaded 5 .rf rfl
  have hsp : u.sp = s.sp + 12 := hsp
  rw [restoreRegisters_eq, hu, hsame, ha, hb, hc, hd, he, hf, hsp]

/-! ### The obligations -/

/-- Settles O31: the arms are the new states themselves. -/
theorem haltWaitNop : Obligations.HaltWaitNop := fun _ => ⟨rfl, rfl, rfl⟩

/-- Settles O34: the six words of the frame are those of the pushes and pops inside the limits. -/
theorem saveAndRestoreRegisters : Obligations.SaveAndRestoreRegisters := by
  refine fun s => ⟨fun _ h => ?_, fun h => runM_ok (restoreRegisters_room h)⟩
  obtain ⟨u, hu, hsp, hword, hbyte, hsame⟩ := saveRegisters_room h
  exact ⟨u, runM_ok hu, hsp, hword 5 (by decide), hword 4 (by decide), hword 3 (by decide), hword 2 (by decide),
    hword 1 (by decide), hword 0 (by decide), hbyte, hsame⟩

/-- Settles O38: a pop outside the limits is the first one, before which nothing is done. -/
theorem returnInstructions : Obligations.ReturnInstructions := by
  intro i hi
  have hexec (s : State) : exec i s = runM returnEntry s := by
    simp only [List.mem_cons, List.not_mem_nil, or_false] at hi
    obtain rfl | rfl := hi <;> rfl
  refine ⟨fun s h => ?room, fun s h => ?limit, fun s vec h hpc => ?undo⟩
  case room => rw [hexec, runM_ok (returnEntry_room h)]
  case limit => exact (hexec s).trans (runM_halt (bind_of_error (popSystem_outside h)))
  case undo => exact ⟨_, (hexec _).trans (runM_ok (returnEntry_entryState h s.pc)), mask_of_even hpc, rfl, rfl⟩

/-- Settles O39: the words pushed cover the four bytes of the words popped and no other. -/
theorem exsInstruction : Obligations.ExsInstruction := by
  intro s h hwf hpsw hpc
  have htop := h.sps_top
  obtain ⟨st, hrun⟩ := exchangeEntry_room h hpsw hpc
  obtain ⟨hreadPsw, hreadPc⟩ := read_two_words hwf h.sps_even (by omega) s.psw s.pc
  refine ⟨_, runM_ok hrun, rfl, rfl, hreadPsw, hreadPc, fun a ha => ?_, rfl⟩
  have hnotPsw : a ∉ accessBytes true s.sps := not_mem_accessBytes_word.2 (by bv_omega)
  have hnotPc : a ∉ accessBytes true (s.sps + 2) := not_mem_accessBytes_word.2 (by bv_omega)
  exact (readByte_write_other hnotPsw _ _).trans (readByte_write_other hnotPc _ _)

end Sys2Proof.Machine

/-! SUPPORT. The instructions with a parameter in their word (46_parameter.md): the conditions of the branches on the
flags of a difference, how a branch and a mask instruction complete in every state, and the obligations about them. -/

namespace Sys2Proof.Machine

/-! ### The signed order from S and V (R356, R357) -/

theorem addSum_not_true_eq_sub {n : Nat} (a b : BitVec n) : addSum a (~~~b) true = a - b := by
  simpa using addSum_not_eq_sub a b false

section
variable {m : Nat} (a b : BitVec (m + 1))

theorem addOverflow_not_true_eq_true_iff :
    addOverflow a (~~~b) true = true ↔ a.toInt - b.toInt < -2 ^ m ∨ 2 ^ m ≤ a.toInt - b.toInt := by
  simpa using addOverflow_not_eq_true_iff a b false

theorem toInt_sub_of_not_overflow (h : addOverflow a (~~~b) true = false) : (a - b).toInt = a.toInt - b.toInt := by
  have hrange := mt (addOverflow_not_true_eq_true_iff a b).2 (Bool.eq_false_iff.1 h)
  have hadd := toInt_add_ofInt (a := a) (z := -b.toInt) (by omega) (by omega)
  rwa [BitVec.ofInt_neg, BitVec.ofInt_toInt, ← BitVec.sub_eq_add_neg] at hadd

/-- A difference overflows only where the signs of its operands differ, and then has the sign of `b`. -/
theorem msb_sub_of_overflow (h : addOverflow a (~~~b) true = true) : a.msb = !b.msb ∧ (a - b).msb = b.msb := by
  obtain ⟨hsigns, hresult⟩ := (addOverflow_eq_true_iff_msb a (~~~b) true).1 h
  rw [BitVec.msb_not, decide_eq_true m.succ_pos, Bool.true_and] at hsigns
  rw [addSum_not_true_eq_sub, hsigns] at hresult
  exact ⟨hsigns, by simpa using hresult⟩

/-- The sign of a difference is that of the exact one, unless it overflows: S differs from V exactly where `a` is the
smaller. -/
theorem msb_sub_bne_overflow : ((a - b).msb != addOverflow a (~~~b) true) = decide (a.toInt < b.toInt) := by
  cases hv : addOverflow a (~~~b) true with
  | false =>
    rw [Bool.bne_false, BitVec.msb_eq_toInt, toInt_sub_of_not_overflow a b hv]
    exact decide_eq_decide.2 (by omega)
  | true =>
    obtain ⟨hsigns, hresult⟩ := msb_sub_of_overflow a b hv
    rw [Bool.bne_true, hresult, ← hsigns, BitVec.msb_eq_toInt]
    rw [BitVec.msb_eq_toInt, BitVec.msb_eq_toInt, ← decide_not, decide_eq_decide] at hsigns
    exact decide_eq_decide.2 (by omega)

end

/-! ### The conditions after a difference (R356 to R363) -/

/-- The nine conditions on the PSW `q` compare `a` with `b`, signed and unsigned. -/
def Compares {n : Nat} (q : Word) (a b : BitVec n) : Prop :=
  condGe q = decide (b.toInt ≤ a.toInt) ∧ condLt q = decide (a.toInt < b.toInt) ∧
    condGt q = decide (b.toInt < a.toInt) ∧ condLe q = decide (a.toInt ≤ b.toInt) ∧
    condHi q = decide (b.toNat < a.toNat) ∧ condLs q = decide (a.toNat ≤ b.toNat) ∧
    (!pswC q) = decide (b.toNat ≤ a.toNat) ∧ pswC q = decide (a.toNat < b.toNat) ∧ pswZ q = decide (a = b)

/-- The conditions are made of three: the two strict orders and equality. -/
theorem compares_of_flags {n : Nat} {q : Word} {a b : BitVec n} (hsigned : condLt q = decide (a.toInt < b.toInt))
    (hunsigned : pswC q = decide (a.toNat < b.toNat)) (hequal : pswZ q = decide (a = b)) : Compares q a b := by
  have hle' : condLe q = (pswZ q || condLt q) := rfl
  have hle : condLe q = decide (a.toInt ≤ b.toInt) := by
    rw [hle', hequal, hsigned, ← Bool.decide_or, decide_eq_decide, ← BitVec.toInt_inj]
    omega
  have hls : condLs q = decide (a.toNat ≤ b.toNat) := by
    rw [condLs, hunsigned, hequal, ← Bool.decide_or, decide_eq_decide, ← BitVec.toNat_inj]
    omega
  have hge : condGe q = !condLt q := (Bool.not_not _).symm
  have hgt : condGt q = !condLe q := rfl
  have hhi : condHi q = !condLs q := rfl
  refine ⟨?_, hsigned, ?_, hle, ?_, hls, ?_, hunsigned, hequal⟩
  · rw [hge, hsigned, ← decide_not, decide_eq_decide, Int.not_lt]
  · rw [hgt, hle, ← decide_not, decide_eq_decide, Int.not_le]
  · rw [hhi, hls, ← decide_not, decide_eq_decide, Nat.not_le]
  · rw [hunsigned, ← decide_not, decide_eq_decide, Nat.not_lt]

theorem subResult_compares {m : Nat} (a b : BitVec (m + 1)) (p : Word) :
    Compares (subResult a (~~~b) true p).2 a b := by
  obtain ⟨-, hc, -, hz, -, -⟩ := subResult_row_of_no_borrow a b p
  refine compares_of_flags ?signed hc (hz.trans (decide_eq_decide.2 sub_eq_zero))
  rw [← msb_sub_bne_overflow, ← addSum_not_true_eq_sub, condLt]
  exact congrArg₂ bne (pswS_withCVZS ..) (pswV_withCVZS ..)

/-! ### Branches (R340) -/

theorem exec_branches {q} (hq : q ∈ branches) (o : BitVec 8) (s : State) :
    exec (q.1 o) s = runM (branchIf q.2 o) s := by
  fin_cases hq <;> rfl

theorem branchIf_apply (cond : Word → Bool) (o : BitVec 8) (s : State) : branchIf cond o s =
    .ok () (if cond s.psw then { s with pc := (s.pc + 2 * o.signExtend 16) &&& 0xFFFE } else s) := rfl

/-! ### Masks of the condition codes (R364 to R368) -/

section
variable (p : Word) (k : BitVec 7)

theorem getLsbD_codes {j : Nat} (hj : j < 7) : (p.extractLsb' 0 7).getLsbD j = p.getLsbD j := by
  rw [BitVec.getLsbD_extractLsb', decide_eq_true hj, Bool.true_and, Nat.zero_add]

/-- The test of ERC: the codes contain the mask. -/
theorem codes_and_eq_mask_iff :
    p.extractLsb' 0 7 &&& k = k ↔ ∀ j, j < 7 → k.getLsbD j = true → p.getLsbD j = true := by
  rw [BitVec.eq_of_getLsbD_eq_iff]
  refine forall₂_congr fun j hj => ?_
  rw [BitVec.getLsbD_and, getLsbD_codes p hj, Bool.and_eq_right_iff_imp]

theorem getLsbD_withCodes_or (j : Nat) : (withCodes p (p.extractLsb' 0 7 ||| k)).getLsbD j =
    (p.getLsbD j || (decide (j < 7) && k.getLsbD j)) := by
  rw [getLsbD_withCodes]
  split
  case isTrue hj => rw [BitVec.getLsbD_or, getLsbD_codes p hj, decide_eq_true hj, Bool.true_and]
  case isFalse hj => rw [decide_eq_false hj, Bool.false_and, Bool.or_false]

theorem getLsbD_withCodes_and (j : Nat) : (withCodes p (p.extractLsb' 0 7 &&& k)).getLsbD j =
    (p.getLsbD j && (decide (7 ≤ j) || k.getLsbD j)) := by
  rw [getLsbD_withCodes]
  split
  case isTrue hj => rw [BitVec.getLsbD_and, getLsbD_codes p hj, decide_eq_false (by omega), Bool.false_or]
  case isFalse hj => rw [decide_eq_true (by omega), Bool.true_or, Bool.and_true]

theorem getLsbD_withCodes_and_not (j : Nat) : (withCodes p (p.extractLsb' 0 7 &&& ~~~k)).getLsbD j =
    (p.getLsbD j && !(decide (j < 7) && k.getLsbD j)) := by
  rw [getLsbD_withCodes_and, BitVec.getLsbD_not]
  by_cases hj : j < 7
  · rw [decide_eq_true hj, decide_eq_false (by omega), Bool.false_or, Bool.true_and, Bool.true_and]
  · rw [decide_eq_false hj, decide_eq_true (by omega), Bool.true_or, Bool.false_and, Bool.not_false]

theorem ercOp_apply (s : State) : ercOp k s = .ok () (if s.psw.extractLsb' 0 7 &&& k = k then
    { s with psw := withCodes s.psw (s.psw.extractLsb' 0 7 &&& ~~~k), pc := (s.pc + 2) &&& 0xFFFE } else s) := rfl

theorem maskOp_apply (f : BitVec 7 → BitVec 7) (s : State) :
    maskOp f s = .ok () { s with psw := withCodes s.psw (f (s.psw.extractLsb' 0 7)) } := rfl

end

/-- The field of CNM, from where it begins to where it ends (R369). -/
theorem getLsbD_withLevel_eq_ite (p : Word) (l : BitVec 4) (j : Nat) : (withLevel p l).getLsbD j =
    if 8 ≤ j ∧ j ≤ 11 then l.getLsbD (j - 8) else p.getLsbD j := by
  rw [getLsbD_withLevel]
  by_cases hj : 8 ≤ j ∧ j ≤ 11
  · rw [if_neg (by omega), if_pos (by omega), if_pos hj]
  · rw [if_neg hj]
    by_cases hlow : j < 8
    · rw [if_pos hlow]
    · rw [if_neg hlow, if_neg (by omega)]

/-! ### The obligations -/

/-- Settles O32: the 23 branches are `branchIf` of their conditions. -/
theorem branchInstructions : Obligations.BranchInstructions :=
  fun q hq o s => (exec_branches hq o s).trans (runM_ok (branchIf_apply q.2 o s))

/-- Settles O33: ERC tests that its codes contain the mask, so the two clauses about it are the two outcomes. -/
theorem maskInstructions : Obligations.MaskInstructions := by
  intro k l s
  have hmask (f : BitVec 7 → BitVec 7) :
      runM (maskOp f) s = .next { s with psw := withCodes s.psw (f (s.psw.extractLsb' 0 7)) } :=
    runM_ok (maskOp_apply f s)
  have herc := runM_ok (ercOp_apply k s)
  refine ⟨⟨_, hmask fun c => c ||| k, getLsbD_withCodes_or s.psw k⟩,
    ⟨_, hmask fun c => c &&& k, getLsbD_withCodes_and s.psw k⟩, ⟨_, hmask fun _ => k, getLsbD_withCodes s.psw k⟩,
    fun hall => ?skip, fun ⟨j, hj, hk, hcode⟩ => ?stay,
    ⟨withLevel s.psw l, runM_ok rfl, getLsbD_withLevel_eq_ite s.psw l⟩⟩
  case skip =>
    rw [if_pos ((codes_and_eq_mask_iff s.psw k).2 hall)] at herc
    exact ⟨_, herc, getLsbD_withCodes_and_not s.psw k⟩
  case stay =>
    have hnot : ¬ s.psw.extractLsb' 0 7 &&& k = k := fun h =>
      Bool.false_ne_true (hcode.symm.trans ((codes_and_eq_mask_iff s.psw k).1 h j hj hk))
    rwa [if_neg hnot] at herc

/-- Settles O18: CMP and SUB are the two differences of their operands. -/
theorem branchesAfterCompare : Obligations.BranchesAfterCompare := by
  intro n s d p hn
  obtain ⟨m, rfl⟩ : ∃ m, n = m + 1 := ⟨n - 1, by omega⟩
  obtain ⟨hge, hlt, hgt, hle, hhi, hls, hhs, hlo, hz⟩ := subResult_compares d s p
  exact ⟨subResult_compares s d p, hge, hlt, hgt, hle, hhi, hls, hhs, hlo, hz.trans (decide_eq_decide.2 eq_comm)⟩

end Sys2Proof.Machine

/-! SUPPORT. The ASTROM (47_astrom.md): the integer results, the execution template with the unit up and off, the
constraints on the opaque functions, and the obligations about them. -/

namespace Sys2Proof.Machine

/-! ### Integer results (R382, R384, R389) -/

theorem beq_zero_eq_decide_toInt (w : Word) : (w == 0) = decide (w.toInt = 0) :=
  decide_eq_decide.2 BitVec.toInt_inj.symm

theorem msb_eq_decide_toInt (w : Word) : w.msb = decide (w.toInt < 0) := BitVec.msb_eq_toInt

/-- Bits 15-0 of a zero-extended word. -/
theorem extractLsb'_setWidth_word (w : Word) : (w.setWidth 32).extractLsb' 0 16 = w := by
  rw [← BitVec.setWidth_eq_extractLsb' (by decide), BitVec.setWidth_setWidth_of_le w (by decide), BitVec.setWidth_eq]

theorem setWidth_word_lt (w : Word) : (w.setWidth 32).toNat < 65536 := by
  have hw := w.isLt
  rw [BitVec.toNat_setWidth]
  omega

theorem intFits_iff (e : Int) : intFits e = true ↔ -32768 ≤ e ∧ e ≤ 32767 := by simp [intFits]

theorem toInt_ofInt_of_fits {e : Int} (h : intFits e = true) : (BitVec.ofInt 16 e).toInt = e := by
  obtain ⟨hlow, hhigh⟩ := (intFits_iff e).1 h
  exact BitVec.toInt_ofInt_eq_self (by decide) hlow (by omega)

theorem isDivByZero_iff (op : AstromOp) (b : Word) : isDivByZero op b = true ↔ op = .div ∧ b = 0 := by
  simp [isDivByZero]

/-- ZUPF and SUPF are those of bits 15-0 of the result, read as an integer, and CVER is 0 (R384). -/
structure IntegerCoded (x : Long × AstromCodes) : Prop where
  zupf : x.2.zupf = decide ((x.1.extractLsb' 0 16).toInt = 0)
  supf : x.2.supf = decide ((x.1.extractLsb' 0 16).toInt < 0)
  cver : x.2.cver = false

section
variable {op : AstromOp} {c : Config} {acc : Long} {b : Word} {e : Int}

/-- The three ways an integer operation ends: a zero divisor, an exact result in range, one out of range. -/
theorem intOp_divByZero (h : isDivByZero op b = true) :
    (intOp op c acc b).2.divz = true ∧ IntegerCoded (intOp op c acc b) := by
  rw [intOp, if_pos h]
  exact ⟨rfl, beq_zero_eq_decide_toInt _, msb_eq_decide_toInt _, rfl⟩

theorem intOp_fits (h : isDivByZero op b = false) (he : intExact c.divRounding op (acc.extractLsb' 0 16) b = e)
    (hfits : intFits e = true) : intOp op c acc b =
      ((BitVec.ofInt 16 e).setWidth 32, plainCodes (decide (e = 0)) (decide (e < 0))) := by
  rw [intOp, h, if_neg Bool.false_ne_true, he, if_pos hfits]

theorem intOp_overflows (h : isDivByZero op b = false)
    (he : intExact c.divRounding op (acc.extractLsb' 0 16) b = e) (hfits : intFits e = false) :
    (intOp op c acc b).2.ovfl = true ∧ IntegerCoded (intOp op c acc b) := by
  have hout : ¬ intFits e = true := Bool.eq_false_iff.1 hfits
  rw [intOp, h, if_neg Bool.false_ne_true, he, if_neg hout]
  exact ⟨rfl, beq_zero_eq_decide_toInt _, msb_eq_decide_toInt _, rfl⟩

theorem integerCoded_of_fits (hfits : intFits e = true) : IntegerCoded
    ((BitVec.ofInt 16 e).setWidth 32, plainCodes (decide (e = 0)) (decide (e < 0))) := by
  constructor <;> simp only [extractLsb'_setWidth_word, toInt_ofInt_of_fits hfits] <;> rfl

theorem intOp_integerCoded (op : AstromOp) (c : Config) (acc : Long) (b : Word) :
    IntegerCoded (intOp op c acc b) := by
  cases hdiv : isDivByZero op b with
  | true => exact (intOp_divByZero hdiv).2
  | false =>
    cases hfits : intFits (intExact c.divRounding op (acc.extractLsb' 0 16) b) with
    | true => rw [intOp_fits hdiv rfl hfits]; exact integerCoded_of_fits hfits
    | false => exact (intOp_overflows hdiv rfl hfits).2

end

theorem raisesTrap_of_divz {k : AstromCodes} (h : k.divz = true) : raisesTrap k = true := by simp [raisesTrap, h]

theorem raisesTrap_of_ovfl {k : AstromCodes} (h : k.ovfl = true) : raisesTrap k = true := by simp [raisesTrap, h]

/-- Settles O46, by the three ways an integer operation ends. -/
theorem astromIntegerResults : Obligations.AstromIntegerResults := by
  intro c acc b op e hround a hmem
  have he : intExact c.divRounding op (acc.extractLsb' 0 16) b = e := by
    rw [hround]
    simp only [List.mem_cons, List.not_mem_nil, or_false, Prod.mk.injEq] at hmem
    obtain ⟨rfl, rfl⟩ | ⟨rfl, rfl⟩ | ⟨rfl, rfl⟩ | ⟨rfl, rfl⟩ | ⟨rfl, rfl⟩ | ⟨rfl, rfl⟩ := hmem <;> rfl
  have hnot (h : op = .div → b ≠ 0) : isDivByZero op b = false :=
    Bool.eq_false_iff.2 fun hz => have ⟨hop, hb⟩ := (isDivByZero_iff op b).1 hz; h hop hb
  obtain ⟨hzupf, hsupf, hcver⟩ := intOp_integerCoded op c acc b
  refine ⟨fun h hlow hhigh => ?inRange, fun h hout => ?outOfRange, fun hop hb => ?divByZero, hzupf, hsupf, hcver⟩
  case inRange =>
    have hfits : intFits e = true := (intFits_iff e).2 ⟨hlow, hhigh⟩
    rw [intOp_fits (hnot h) he hfits, extractLsb'_setWidth_word, toInt_ofInt_of_fits hfits]
    exact ⟨rfl, setWidth_word_lt _, rfl, rfl⟩
  case outOfRange =>
    have hfits : intFits e = false := Bool.eq_false_iff.2 fun hf => by have := (intFits_iff e).1 hf; omega
    have hovfl := (intOp_overflows (hnot h) he hfits).1
    exact ⟨hovfl, raisesTrap_of_ovfl hovfl⟩
  case divByZero =>
    have hdivz := (intOp_divByZero (c := c) (acc := acc) ((isDivByZero_iff op b).2 ⟨hop, hb⟩)).1
    exact ⟨hdivz, raisesTrap_of_divz hdivz⟩

/-! ### The opaque functions (R384) -/

/-- Bits 15-0 of a conversion to integer are those of the opaque result, with CVER = 1 too. -/
theorem ftoiOp_low (c : Config) (acc v : Long) :
    (ftoiOp c acc v).1.extractLsb' 0 16 = (Config.ftoi v).1.extractLsb' 0 16 := by
  show (if (Config.ftoi v).2.cver then (Config.ftoi v).1
    else ((Config.ftoi v).1.extractLsb' 0 16).setWidth 32).extractLsb' 0 16 = _
  split
  · rfl
  · exact extractLsb'_setWidth_word _

theorem ftoiOp_cver_or_lt (c : Config) (acc v : Long) :
    (ftoiOp c acc v).2.cver = true ∨ (ftoiOp c acc v).1.toNat < 65536 := by
  have hcver : (ftoiOp c acc v).2.cver = (Config.ftoi v).2.cver := rfl
  rw [hcver]
  cases h : (Config.ftoi v).2.cver with
  | true => exact .inl rfl
  | false =>
    rw [ftoiOp, h, if_neg Bool.false_ne_true]
    exact .inr (setWidth_word_lt _)

/-- Settles O50: `floatCodes` and `integerCodes` put the constraints on whatever the opaque functions give. -/
theorem astromFunctionConstraints : Obligations.AstromFunctionConstraints := by
  intro c acc v w
  refine ⟨fun f hf => ?float, ⟨rfl, rfl, rfl⟩, rfl, ftoiOp_cver_or_lt c acc v, ?zupf, ?supf⟩
  case float => fin_cases hf <;> exact ⟨rfl, rfl, rfl⟩
  case zupf => rw [ftoiOp_low]; exact beq_zero_eq_decide_toInt _
  case supf => rw [ftoiOp_low]; exact msb_eq_decide_toInt _

/-! ### The execution template (R386, R388) -/

theorem exec_astromIntM {q} (hq : q ∈ astromIntM) (a b : AcReg) (s : State) :
    exec (q.1 a b) s = runM (astromOp (acIntSource b) (intOp q.2) true a) s := by
  fin_cases hq <;> rfl

theorem exec_astromFloatM {q} (hq : q ∈ astromFloatM) (a b : AcReg) (s : State) :
    exec (q.1 a b) s = runM (astromOp (acSource b) q.2.2 q.2.1 a) s := by
  fin_cases hq <;> rfl

theorem acSource_apply (b : AcReg) (s : State) : acSource b s = .ok (s.getM b) s := rfl

theorem acIntSource_apply (b : AcReg) (s : State) : acIntSource b s = .ok ((s.getM b).extractLsb' 0 16) s := rfl

theorem locateLong_of_some {p : Operand} {q : Pair} (h : pairOf p = some q) (s : State) :
    locateLong p s = .ok q s := by
  rw [locateLong, h]
  rfl

theorem longSource_of_pair {p : Operand} {q : Pair} (h : pairOf p = some q) (s : State) :
    longSource p s = .ok (s.getPair q) s := bind_of_ok (locateLong_of_some h s)

theorem requireUp_on {s : State} (h : s.upfok = true) : requireUp s = .ok () s := by
  rw [requireUp, get_bind_apply, h]
  rfl

theorem requireUp_off {s : State} (h : s.upfok = false) : requireUp s = .error (.trap .astrom) s := by
  rw [requireUp, get_bind_apply, h]
  rfl

section
variable {α : Type} {src : M α} {op : Config → Long → α → Long × AstromCodes} {w : Bool} {a : AcReg} {s t : State}
  {v : α}

/-- With the unit up AC1 and the codes are written, and then the codes decide on the trap. -/
theorem runM_astromOp_on (hv : src s = .ok v t) (hup : t.upfok = true) : runM (astromOp src op w a) s =
    if raisesTrap (op t.cfg (t.getM a) v).2 then raiseInInstr .astrom (t.putResult w a (op t.cfg (t.getM a) v))
    else .next (t.putResult w a (op t.cfg (t.getM a) v)) := by
  have hop : astromOp src op w a s = raiseIf (raisesTrap (op t.cfg (t.getM a) v).2) .astrom
      (t.putResult w a (op t.cfg (t.getM a) v)) := by
    rw [astromOp, bind_of_ok hv, bind_of_ok (requireUp_on hup)]
    rfl
  rw [raiseIf_apply] at hop
  split
  · next htrap => rw [if_pos htrap] at hop; exact runM_trap hop
  · next hquiet => rw [if_neg hquiet] at hop; exact runM_ok hop

/-- With the unit off the source has been read, and nothing else is done. -/
theorem runM_astromOp_off (hv : src s = .ok v t) (hup : t.upfok = false) :
    runM (astromOp src op w a) s = raiseInInstr .astrom t := by
  refine runM_trap ?_
  rw [astromOp, bind_of_ok hv, bind_of_error (requireUp_off hup)]

/-- An operation whose codes cause no trap completes. -/
theorem runM_astromOp_quiet (hv : src s = .ok v t) (hup : t.upfok = true)
    (hquiet : raisesTrap (op t.cfg (t.getM a) v).2 = false) :
    runM (astromOp src op w a) s = .next (t.putResult w a (op t.cfg (t.getM a) v)) := by
  rw [runM_astromOp_on hv hup, hquiet, if_neg Bool.false_ne_true]

theorem entryRoom_putResult {vec : Word} (h : t.entryRoom vec) (x : Long × AstromCodes) :
    (t.putResult w a x).entryRoom vec := by
  cases w
  · exact { h with calm := { h.calm with } }
  · cases a <;> exact { h with calm := { h.calm with } }

theorem raiseInInstr_astrom_room (h : t.entryRoom 0xFF94) :
    raiseInInstr .astrom t = .next (entryState t.pc 0xFF94 { t with bpArmed := false }) :=
  raiseInInstr_room (e := .astrom) h rfl

/-- With room for the trap, the instruction has a next state whatever its codes. -/
theorem runM_astromOp_room (hv : src s = .ok v t) (hup : t.upfok = true) (hroom : t.entryRoom 0xFF94) :
    runM (astromOp src op w a) s = .next
      (if raisesTrap (op t.cfg (t.getM a) v).2 then
        entryState (t.putResult w a (op t.cfg (t.getM a) v)).pc 0xFF94
          { t.putResult w a (op t.cfg (t.getM a) v) with bpArmed := false }
      else t.putResult w a (op t.cfg (t.getM a) v)) := by
  rw [runM_astromOp_on hv hup, raiseInInstr_astrom_room (entryRoom_putResult hroom _), ← apply_ite]

end

/-- Reading an operand leaves the unit, its switch and the configuration. -/
theorem unit_of_readOperand {n : Nat} {p : Operand} {v : BitVec n} {s t : State} (h : readOperand n p s = .ok v t) :
    t.upfok = s.upfok ∧ t.cfg = s.cfg ∧ ∀ a, t.getM a = s.getM a := by
  have hread : OperandOnly s t := keepsAt_ok (readOperand_operandOnly n p s) h
  exact ⟨hread.unit.1, by rw [hread.same], hread.unit.2⟩

/-! ### The obligations -/

/-- An instruction that ends with its codes' decision on the trap. -/
theorem outcome_of_decision {i : Instr} {s u : State}
    (h : exec i s = if raisesTrap u.mf then raiseInInstr .astrom u else .next u) :
    (raisesTrap u.mf = false → exec i s = .next u) ∧
    (raisesTrap u.mf = true → exec i s = raiseInInstr .astrom u ∧
      (u.entryRoom 0xFF94 → exec i s = .next (entryState u.pc 0xFF94 { u with bpArmed := false }))) := by
  refine ⟨fun hquiet => ?_, fun htrap => ?_⟩
  · rw [h, hquiet, if_neg Bool.false_ne_true]
  · rw [if_pos htrap] at h
    exact ⟨h, fun hroom => h.trans (raiseInInstr_astrom_room hroom)⟩

/-- Settles O47, by the source. -/
theorem astromIntegerInstructions : Obligations.AstromIntegerInstructions := by
  intro s a hup
  refine ⟨fun q hq p v t hv => outcome_of_decision ?operand, fun q hq b => outcome_of_decision ?register⟩
  case operand =>
    obtain ⟨hup', hcfg, hm⟩ := unit_of_readOperand hv
    rw [exec_astromIntP hq, ← hcfg, ← hm a]
    exact runM_astromOp_on hv (hup'.trans hup)
  case register => exact (exec_astromIntM hq a b s).trans (runM_astromOp_on (acIntSource_apply b s) hup)

section
variable {a : AcReg} {p : Operand} {s s1 t : State}

/-- AZPF reaches the registers after the unit has been asked (R420). -/
theorem storeFloat_on {q : Pair} (h : pairOf p = some q) (hup : s.upfok = true) :
    storeFloat a p s = .ok () { s.setPair q (s.getM a) with mf := clearCodes } := by
  rw [storeFloat, bind_of_ok (locateLong_of_some h s), bind_of_ok (requireUp_on hup)]
  rfl

theorem storeFloat_off {q : Pair} (h : pairOf p = some q) (hup : s.upfok = false) :
    storeFloat a p s = .error (.trap .astrom) s := by
  rw [storeFloat, bind_of_ok (locateLong_of_some h s), bind_of_error (requireUp_off hup)]

theorem storeInt_on {l : Loc} (hl : locate p s = .ok l s1) (hup : s.upfok = true)
    (hw : writeLoc 16 l ((s.getM a).extractLsb' 0 16) s1 = .ok () t) :
    storeInt a p s = .ok () { t with mf := clearCodes } := by
  obtain ⟨hup1, hm⟩ := (keepsAt_ok (locate_operandOnly p s) hl).unit
  rw [← hm a] at hw
  rw [storeInt, bind_of_ok hl, bind_of_ok (requireUp_on (hup1.trans hup)), get_bind_apply, bind_of_ok hw]
  rfl

theorem storeInt_off {l : Loc} (hl : locate p s = .ok l t) (hup : s.upfok = false) :
    storeInt a p s = .error (.trap .astrom) t := by
  have hup1 := (keepsAt_ok (locate_operandOnly p s) hl).unit.1
  rw [storeInt, bind_of_ok hl, bind_of_error (requireUp_off (hup1.trans hup))]

end

/-- Settles O48: the codes of a transfer are all 0, which causes no trap. -/
theorem astromTransfers : Obligations.AstromTransfers := by
  intro s a b hup
  refine ⟨?cprgi, fun p v t hv => ?cri, fun p q hq => ⟨?crpf, ?azpf⟩, fun p l s1 t hl hw => ?azi⟩
  case cprgi => exact runM_astromOp_quiet (acSource_apply b s) hup rfl
  case cri => exact runM_astromOp_quiet hv ((unit_of_readOperand hv).1.trans hup) rfl
  case crpf => exact runM_astromOp_quiet (longSource_of_pair hq s) hup rfl
  case azpf => exact runM_ok (storeFloat_on hq hup)
  case azi => exact runM_ok (storeInt_on hl hup hw)

/-- Settles O49, by the source; `putResult` is what the statement calls done. -/
theorem astromFloatInstructions : Obligations.AstromFloatInstructions := by
  intro s a hup hroom
  refine ⟨fun q hq p r hr => ?pair, fun q hq b => ?register, fun b => ?ipfm, fun r => ?direct,
    fun p v t hv hroom' => ?ipfp⟩
  case pair => exact (exec_astromFloatP hq a p s).trans (runM_astromOp_room (longSource_of_pair hr s) hup hroom)
  case register => exact (exec_astromFloatM hq a b s).trans (runM_astromOp_room (acSource_apply b s) hup hroom)
  case ipfm => exact runM_astromOp_room (acIntSource_apply b s) hup hroom
  case direct =>
    have hv : wordSource (.direct r) s = .ok (s.getG r) s := (readLoc_reg 16 r s).trans (by rw [BitVec.setWidth_eq])
    exact runM_astromOp_room hv hup hroom
  case ipfp => exact runM_astromOp_room hv ((unit_of_readOperand hv).1.trans hup) hroom'

/-- Settles O51: the unit is asked right after the source is read or the destination located. -/
theorem astromOffTraps : Obligations.AstromOffTraps := by
  intro s a b hup
  have hregister : ∀ i ∈ [Instr.ipfm a b, .cprgi a b], exec i s = raiseInInstr .astrom s := by
    intro i hi
    simp only [List.mem_cons, List.not_mem_nil, or_false] at hi
    obtain rfl | rfl := hi
    · exact runM_astromOp_off (acIntSource_apply b s) hup
    · exact runM_astromOp_off (acSource_apply b s) hup
  refine ⟨fun q hq => ?intM, fun q hq => ?floatM, hregister, fun p r hr => ⟨fun q hq => ?floatP, ?crpf, ?azpf⟩,
    fun p v t hv => ?operand, fun p l t hl => runM_trap (storeInt_off hl hup)⟩
  case intM => exact (exec_astromIntM hq a b s).trans (runM_astromOp_off (acIntSource_apply b s) hup)
  case floatM => exact (exec_astromFloatM hq a b s).trans (runM_astromOp_off (acSource_apply b s) hup)
  case floatP => exact (exec_astromFloatP hq a p s).trans (runM_astromOp_off (longSource_of_pair hr s) hup)
  case crpf => exact runM_astromOp_off (longSource_of_pair hr s) hup
  case azpf => exact runM_trap (storeFloat_off hr hup)
  case operand =>
    have hup' : t.upfok = false := (unit_of_readOperand hv).1.trans hup
    exact ⟨fun q hq => (exec_astromIntP hq a p s).trans (runM_astromOp_off hv hup'), runM_astromOp_off hv hup',
      runM_astromOp_off hv hup'⟩

end Sys2Proof.Machine

/-! SUPPORT. Exceptions (60_exceptions.md): the faults of the two stacks, entries with and without room, the choice of
the interrupt, boundary processing, the instruction cycle, WAIT, HALT and the panel, the reset sequence
(70_reset_and_hazards.md), and the obligations about them. -/

namespace Sys2Proof.Machine

/-! ### The vectors (R441; 20_memory.md R77) -/

theorem softVector_toNat (n : BitVec 3) : (softVector n).toNat = 0xFFA0 + 4 * n.toNat := by
  have hn := n.isLt
  unfold softVector
  bv_omega

theorem interruptVector_toNat {n : Nat} (hn : n < 16) : (interruptVector n).toNat = 0xFFC0 + 4 * n := by
  unfold interruptVector
  bv_omega

/-- Settles O35: the table is the model's, the two families are computed without a carry. -/
theorem vectorTable : Obligations.VectorTable :=
  ⟨rfl, rfl, rfl, rfl, rfl, rfl, rfl, softVector_toNat, fun _ => interruptVector_toNat⟩

/-! ### The limits of the two stacks (R442; 20_memory.md R80, R81) -/

/-- The faults of one bus cycle (20_memory.md R82, R83). -/
def isBusFault : Trap → Bool
  | .busTimeout | .parity => true
  | .stackLimit | .oddAddress | .astrom | .invalidOpcode => false

/-- What abandons `x` with a trap is a fault of the bus. -/
def FaultsOnBus {α : Type} (x : M α) : Prop := ∀ s e t, x s = .error (.trap e) t → isBusFault e = true

section
variable {α β : Type} {x : M α}

theorem faultsOnBus_of_ok (h : ∀ s, ∃ a t, x s = .ok a t) : FaultsOnBus x := fun s _ _ hx => by
  obtain ⟨_, _, hok⟩ := h s
  exact nomatch hok.symm.trans hx

theorem faultsOnBus_bind {f : α → M β} (hx : FaultsOnBus x) (hf : ∀ a, FaultsOnBus (f a)) : FaultsOnBus (x >>= f) := by
  intro s e t h
  obtain hxt | ⟨a, u, _, hft⟩ := bind_error.1 h
  · exact hx s e t hxt
  · exact hf a u e t hft

theorem faultsOnBus_get_bind {f : State → M β} (hf : ∀ s, FaultsOnBus (f s)) : FaultsOnBus (get >>= f) :=
  fun s => hf s s

theorem faultsOnBus_trap {e : Trap} (he : isBusFault e = true) : FaultsOnBus (throw (.trap e) : M α) :=
  fun _ _ _ h => by cases h; exact he

theorem faultsOnBus_refuse (r : Refusal) : FaultsOnBus (throw (.refuse r) : M α) := fun _ _ _ h => nomatch h

theorem admpTick_faultsOnBus : FaultsOnBus admpTick := faultsOnBus_of_ok fun s => ⟨(), _, modify_apply _ s⟩

/-- The parity check of a read and what it delivers. -/
theorem parityCheck_faultsOnBus (c : Config) (wide : Bool) (pa w : Word) :
    FaultsOnBus (raiseIf (Config.parityError c wide pa) .parity >>= fun _ => pure w) := by
  refine faultsOnBus_bind ?_ fun _ => faultsOnBus_of_ok fun s => ⟨w, s, rfl⟩
  cases Config.parityError c wide pa
  · exact faultsOnBus_of_ok fun s => ⟨(), s, rfl⟩
  · exact faultsOnBus_trap rfl

theorem busRead_faultsOnBus (wide : Bool) (pa : Word) : FaultsOnBus (busRead wide pa) := by
  refine faultsOnBus_bind admpTick_faultsOnBus fun _ => faultsOnBus_get_bind fun s => ?_
  cases Config.answers s.cfg false wide pa with
  | none => exact faultsOnBus_trap rfl
  | some k =>
    cases k
    case ram => exact parityCheck_faultsOnBus _ _ _ _
    case rom => exact parityCheck_faultsOnBus _ _ _ _
    case device =>
      exact faultsOnBus_bind (faultsOnBus_of_ok fun _ => ⟨(), _, rfl⟩) fun _ => parityCheck_faultsOnBus _ _ _ _

theorem busWrite_faultsOnBus (own wide : Bool) (pa v : Word) : FaultsOnBus (busWrite own wide pa v) := by
  refine faultsOnBus_bind admpTick_faultsOnBus fun _ => faultsOnBus_get_bind fun s => ?_
  cases Config.answers s.cfg true wide pa with
  | none => exact faultsOnBus_trap rfl
  | some k =>
    cases k
    case ram => exact faultsOnBus_of_ok fun _ => ⟨(), _, rfl⟩
    case rom => exact faultsOnBus_refuse _
    case device => exact faultsOnBus_of_ok fun _ => ⟨(), _, rfl⟩

/-- The check of a program-stack access is the only source of its stack-limit trap. -/
theorem stackLimit_iff {s t : State} {a : Word} (hx : FaultsOnBus x) :
    (raiseIf (s.outsideStack a) .stackLimit >>= fun _ => x) s = .error (.trap .stackLimit) t ↔
      (0xF7FF < a.toNat ∨ a.toNat < s.lp.toNat) ∧ t = s := by
  have hout : s.outsideStack a = true ↔ 0xF7FF < a.toNat ∨ a.toNat < s.lp.toNat := by simp [State.outsideStack]
  cases h : s.outsideStack a with
  | true =>
    rw [raiseIf_bind_true rfl]
    refine ⟨fun heq => ⟨hout.1 h, by cases heq; rfl⟩, fun ⟨_, ht⟩ => by rw [ht]⟩
  | false =>
    rw [raiseIf_bind_false rfl]
    exact ⟨fun heq => absurd (hx _ _ _ heq) nofun, fun ⟨hlimit, _⟩ => nomatch h.symm.trans (hout.2 hlimit)⟩

theorem haltOnTrap_no_trap (s t : State) (e : Trap) : haltOnTrap x s ≠ .error (.trap e) t := by
  unfold haltOnTrap
  split <;> exact nofun

theorem haltOnTrap_trap {s t : State} {e : Trap} (h : x s = .error (.trap e) t) :
    haltOnTrap x s = .error .halt t := by
  simp [haltOnTrap, h]

theorem haltIf_bind_true {b : Bool} {f : Unit → M α} {s : State} (h : b = true) :
    (haltIf b >>= f) s = .error .halt s := by
  rw [h]; rfl

/-- A system-stack access is abandoned with HALT or a refusal. -/
theorem haltCheck_no_trap {b : Bool} {s t : State} {e : Trap} :
    (haltIf b >>= fun _ => haltOnTrap x) s ≠ .error (.trap e) t := by
  cases b
  · exact haltOnTrap_no_trap s t e
  · exact nofun

end

section
variable {s : State} {a : Word}

theorem systemCheck_eq_true (h : 0xF7FF < a.toNat ∨ a.toNat < s.lp.toNat ∨ a.getLsbD 0 = true) :
    (s.outsideStack a || a.getLsbD 0) = true := by
  simp only [State.outsideStack, Bool.or_eq_true, decide_eq_true_eq]
  exact or_assoc.2 h

theorem sstackRead_halt (h : 0xF7FF < a.toNat ∨ a.toNat < s.lp.toNat ∨ a.getLsbD 0 = true) :
    sstackRead a s = .error .halt s := haltIf_bind_true (systemCheck_eq_true h)

theorem sstackWrite_halt (own : Bool) (v : Word)
    (h : 0xF7FF < a.toNat ∨ a.toNat < s.lp.toNat ∨ a.getLsbD 0 = true) :
    sstackWrite own a v s = .error .halt s := haltIf_bind_true (systemCheck_eq_true h)

end

/-- Settles O10: the check comes before the bus cycle, whose own faults are timeout and parity; on the system stack
every trap has become HALT. -/
theorem stackLimits : Obligations.StackLimits := by
  intro s t own wide a v
  refine ⟨stackLimit_iff (busRead_faultsOnBus wide a), stackLimit_iff (busWrite_faultsOnBus true wide a v),
    fun h => ⟨sstackRead_halt h, sstackWrite_halt own v h⟩, fun e => ⟨haltCheck_no_trap, haltCheck_no_trap⟩,
    fun e htop hlp heven => ?_⟩
  have hin := outsideStack_eq_false htop hlp
  rw [sstackRead_inside hin heven, sstackWrite_inside hin heven]
  exact ⟨haltOnTrap_trap, haltOnTrap_trap⟩

/-! ### Entries (R450, R452) -/

theorem runEvent_ok {x : M Unit} {s t : State} (h : x s = .ok () t) : runEvent x s = .next t := by
  simp [runEvent, h]

theorem runEvent_halt {x : M Unit} {s t : State} (h : x s = .error .halt t) :
    runEvent x s = .next { t with run := .halt } := by
  simp [runEvent, h]

theorem enterEvent_room {s : State} {vec : Word} (h : s.entryRoom vec) :
    enterEvent vec s = .next (entryState s.pc vec s) := runEvent_ok (trapEntry_room h s.pc)

/-- An entry stores in the four bytes under the old SPS only. -/
theorem entryState_readByte {s : State} {vec : Word} (h : s.entryRoom vec) (savedPc : Word) {a : Nat}
    (ha : a < s.sps.toNat - 4 ∨ s.sps.toNat ≤ a) :
    (entryState savedPc vec s).mem.readByte a = s.mem.readByte a := by
  have hfour := h.sps_four
  have htop := h.sps_top
  have hpc : a ∉ accessBytes true (s.sps - 2) := not_mem_accessBytes_word.2 (by bv_omega)
  have hpsw : a ∉ accessBytes true (s.sps - 4) := not_mem_accessBytes_word.2 (by bv_omega)
  exact (readByte_write_other hpsw _ _).trans (readByte_write_other hpc _ _)

/-- Settles O36: every kind of entry is `trapEntry` with room. -/
theorem trapEntryResult : Obligations.TrapEntryResult := by
  refine ⟨fun s savedPc vec h => ?entry, fun s h => enterEvent_room h, fun s n h => enterEvent_room h,
    fun s e h he => raiseInInstr_room h ?trap⟩
  case entry =>
    obtain ⟨hpsw, hpc⟩ := entryState_words h savedPc
    rw [sub_four_add_two] at hpc
    exact ⟨trapEntry_room h savedPc, enterEvent_room h, hpc, hpsw, fun a => entryState_readByte h savedPc⟩
  case trap => obtain rfl | rfl := he <;> rfl

/-- The first push of an entry, outside the limits: SPS has moved and nothing else is done. -/
theorem trapEntry_outside {s : State} (savedPc vec : Word) (h : 0xF7FF < ((s.sps - 2) &&& 0xFFFE).toNat ∨
    ((s.sps - 2) &&& 0xFFFE).toNat < s.lp.toNat) :
    trapEntry savedPc vec s = .error .halt { s with sps := (s.sps - 2) &&& 0xFFFE } := by
  have hwrite : sstackWrite false ((s.sps - 2) &&& 0xFFFE) savedPc (s.setSps (s.sps - 2)) =
      .error .halt (s.setSps (s.sps - 2)) := sstackWrite_halt false savedPc (h.imp_right .inl)
  have hpush : pushSystem false savedPc s = .error .halt (s.setSps (s.sps - 2)) :=
    (pushSystem_apply false savedPc s).trans hwrite
  exact bind_of_error hpush

/-- Settles O37: the first push of the entry and the first pop of EXS are outside the limits. -/
theorem systemStackFaultHalts : Obligations.SystemStackFaultHalts :=
  ⟨fun s vec h => runEvent_halt (trapEntry_outside s.pc vec h),
    fun _ h => runM_halt (bind_of_error (popSystem_outside h))⟩

end Sys2Proof.Machine

/-! SUPPORT. Around the instruction (60_exceptions.md sections 4 to 6, 70_reset_and_hazards.md): the choice of the
interrupt, boundary processing, the instruction cycle, WAIT, HALT and the panel, the reset sequence, and the obligations
about them. -/

namespace Sys2Proof.Machine

/-! ### The interrupt selected (R457 to R459) -/

theorem accepts_iff (s : State) (n : Nat) : s.accepts n = true ↔
    s.inp.pi.getLsbD n = true ∧ s.imk.getLsbD n = false ∧ (pswLevel s.psw).toNat ≤ n := by
  simp [State.accepts, and_assoc]

/-- In a falling list the first number with a property is the greatest one. -/
theorem find?_eq_some_iff_greatest {p : Nat → Bool} {l : List Nat} (hl : l.Pairwise (· > ·)) {n : Nat} :
    l.find? p = some n ↔ n ∈ l ∧ p n = true ∧ ∀ k ∈ l, n < k → ¬ p k = true := by
  induction l with
  | nil => simp
  | cons a l ih =>
    obtain ⟨hbelow, hl⟩ := List.pairwise_cons.1 hl
    cases hp : p a with
    | true =>
      rw [List.find?_cons_of_pos hp]
      constructor
      · rintro ⟨⟩
        refine ⟨List.mem_cons_self, hp, fun k hk hlt => ?_⟩
        obtain rfl | hk := List.mem_cons.1 hk
        · exact absurd hlt (lt_irrefl k)
        · exact absurd hlt (lt_asymm (hbelow k hk))
      · rintro ⟨hn, -, hgreatest⟩
        obtain rfl | hn := List.mem_cons.1 hn
        · rfl
        · exact absurd hp (hgreatest a List.mem_cons_self (hbelow n hn))
    | false =>
      have hnot : ¬ p a = true := by simp [hp]
      rw [List.find?_cons_of_neg hnot, ih hl]
      constructor
      · exact fun ⟨hn, hpn, hgreatest⟩ =>
          ⟨List.mem_cons_of_mem a hn, hpn, List.forall_mem_cons.2 ⟨fun _ => hnot, hgreatest⟩⟩
      · rintro ⟨hn, hpn, hgreatest⟩
        have hne : n ≠ a := fun h => hnot (h ▸ hpn)
        exact ⟨(List.mem_cons.1 hn).resolve_left hne, hpn, (List.forall_mem_cons.1 hgreatest).2⟩

/-- The sixteen levels, the highest first. -/
def interruptLevels : List Nat := [15, 14, 13, 12, 11, 10, 9, 8, 7, 6, 5, 4, 3, 2, 1, 0]

theorem selectInterrupt_eq (s : State) : selectInterrupt s = interruptLevels.find? s.accepts := rfl

theorem interruptLevels_falling : interruptLevels.Pairwise (· > ·) := by decide

theorem mem_interruptLevels {n : Nat} : n ∈ interruptLevels ↔ n < 16 := by
  simp only [interruptLevels, List.mem_cons, List.not_mem_nil, or_false]
  omega

theorem selectInterrupt_eq_some_iff {s : State} {n : Nat} : selectInterrupt s = some n ↔
    n < 16 ∧ s.accepts n = true ∧ ∀ k, n < k → k < 16 → ¬ s.accepts k = true := by
  rw [selectInterrupt_eq, find?_eq_some_iff_greatest interruptLevels_falling]
  simp only [mem_interruptLevels]
  exact and_congr_right' (and_congr_right' (forall_congr' fun _ => forall_comm))

theorem selectInterrupt_eq_none_iff {s : State} :
    selectInterrupt s = none ↔ ∀ k, k < 16 → ¬ s.accepts k = true := by
  rw [selectInterrupt_eq, List.find?_eq_none]
  simp only [mem_interruptLevels]

/-- Settles O44: LEVEL is at most 15, so level 15 is never below it. -/
theorem interruptSelection : Obligations.InterruptSelection := by
  intro s
  refine ⟨fun n => ?some, ?none, fun hmask hline => ?highest⟩
  case some => simpa only [accepts_iff, and_assoc] using selectInterrupt_eq_some_iff (s := s) (n := n)
  case none => simpa only [accepts_iff] using selectInterrupt_eq_none_iff (s := s)
  case highest =>
    have hlevel : (pswLevel s.psw).toNat ≤ 15 := Nat.le_of_lt_succ (pswLevel s.psw).isLt
    exact selectInterrupt_eq_some_iff.2 ⟨by decide, (accepts_iff s 15).2 ⟨hline, hmask, hlevel⟩, fun k _ _ => by omega⟩

/-! ### The acknowledge (R461) -/

/-- The line of level n, alone. -/
theorem getLsbD_one_shiftLeft {n : Nat} (hn : n < 16) (j : Nat) :
    ((1 : Word) <<< n).getLsbD j = decide (j = n) := by
  rw [BitVec.getLsbD_shiftLeft]
  by_cases h : j = n
  · simp [h, hn]
  · by_cases hlt : j < n
    · simp [hlt, h]
    · have hpos : j - n ≠ 0 := by omega
      simp [BitVec.getLsbD_one, hpos, h]

/-- The request lines after the acknowledge of level n, which its device withdraws or not. -/
theorem intAck_pi {n : Nat} (hn : n < 16) (s : State) (j : Nat) : (intAck n s).inp.pi.getLsbD j =
    (s.inp.pi.getLsbD j && !(decide (j = n) && s.inp.dropOnAck.getLsbD n)) := by
  show (if s.inp.dropOnAck.getLsbD n then s.inp.pi &&& ~~~((1 : Word) <<< n) else s.inp.pi).getLsbD j = _
  cases s.inp.dropOnAck.getLsbD n with
  | false => simp
  | true =>
    rw [if_pos rfl, BitVec.getLsbD_and, BitVec.getLsbD_not, getLsbD_one_shiftLeft hn, Bool.and_true]
    by_cases hj : j < 16
    · rw [decide_eq_true hj, Bool.true_and]
    · rw [BitVec.getLsbD_of_ge s.inp.pi j (Nat.not_lt.1 hj), Bool.false_and, Bool.false_and]

/-! ### The interrupt loop (R455; log 22) -/

/-- What follows an entry at a boundary: where `ENTRY_IS_BOUNDARY`, the interrupts again. -/
def afterEntry (k : Nat) (t : State) : Result := if t.cfg.entryIsBoundary then interruptLoop k t else .next t

theorem andThen_of_next {r : Result} {f : State → Result} {t : State} (h : r = .next t) : andThen r f = f t := by
  rw [h]; rfl

theorem EventOnly.cfg {s t : State} (h : EventOnly s t) : t.cfg = s.cfg := by rw [h.same]

theorem interruptLoop_idle {s : State} (k : Nat) (h : s.run = .halt ∨ selectInterrupt s = none) :
    interruptLoop (k + 1) s = .next s := by
  rw [interruptLoop]
  obtain h | h := h
  · rw [if_pos h]
  · rw [h]; exact ite_self _

section
variable {s t : State} {n : Nat} {vec : Word}

theorem interruptLoop_accepted (k : Nat) (hrun : s.run ≠ .halt) (hsel : selectInterrupt s = some n) :
    interruptLoop (k + 1) s = andThen (enterEvent (interruptVector n) (intAck n s)) (afterEntry k) := by
  rw [interruptLoop, if_neg hrun, hsel]
  rfl

/-- Entries leave the configuration. -/
theorem afterEntry_of_entry (k : Nat) (h : enterEvent vec s = .next t) :
    afterEntry k t = if s.cfg.entryIsBoundary then interruptLoop k t else .next t := by
  rw [afterEntry, (enterEvent_eventOnly h).cfg]

theorem interruptLoop_entered (k : Nat) (hrun : s.run ≠ .halt) (hsel : selectInterrupt s = some n)
    (h : enterEvent (interruptVector n) (intAck n s) = .next t) :
    interruptLoop (k + 1) s = if s.cfg.entryIsBoundary then interruptLoop k t else .next t := by
  rw [interruptLoop_accepted k hrun hsel, andThen_of_next h, afterEntry_of_entry k h]
  rfl

/-- Where an entry is no boundary, it is the end. -/
theorem andThen_afterEntry_single (k : Nat) (hone : s.cfg.entryIsBoundary = false) :
    andThen (enterEvent vec s) (afterEntry k) = enterEvent vec s := by
  cases h : enterEvent vec s with
  | next t =>
    rw [andThen_of_next rfl, afterEntry_of_entry k h, hone, if_neg Bool.false_ne_true]
  | fault e => rfl
  | refused r => rfl

/-- Where an entry is a boundary, the loop goes on until nothing is accepted. -/
theorem interruptLoop_settled {k : Nat} (hmany : s.cfg.entryIsBoundary = true) (h : interruptLoop k s = .next t) :
    t.run = .halt ∨ selectInterrupt t = none := by
  induction k generalizing s with
  | zero => cases h
  | succ k ih =>
    by_cases hidle : s.run = .halt ∨ selectInterrupt s = none
    · cases (interruptLoop_idle k hidle).symm.trans h; exact hidle
    · obtain ⟨hrun, hsome⟩ := not_or.1 hidle
      obtain ⟨n, hsel⟩ := Option.ne_none_iff_exists'.1 hsome
      rw [interruptLoop_accepted k hrun hsel] at h
      obtain ⟨u, hentry, hrest⟩ := andThen_next.1 h
      have hcfg : u.cfg = s.cfg := (enterEvent_eventOnly hentry).cfg
      rw [afterEntry_of_entry k hentry, show (intAck n s).cfg = s.cfg from rfl, hmany, if_pos rfl] at hrest
      exact ih (hcfg ▸ hmany) hrest

end

/-! ### Boundary processing (R455) -/

section
variable {s t : State}

theorem boundary_pare (h : s.inp.pare = true) : boundary s = .next { s with run := .halt } := by
  rw [boundary, applyPare, if_pos h, if_pos rfl]

theorem boundary_halt (h : s.run = .halt) : boundary s = .next s := by
  have hsame : applyPare s = s := by
    unfold applyPare
    split
    · rw [← h]
    · rfl
  rw [boundary, hsame, if_pos h]

theorem boundary_running (hpare : s.inp.pare = false) (hrun : s.run ≠ .halt) : boundary s = boundary2 s := by
  rw [boundary, applyPare, hpare, if_neg Bool.false_ne_true, if_neg hrun]

theorem boundary2_armed (h : s.bpArmed = true) : boundary2 s =
    andThen (enterEvent breakpointVector { s with bpArmed := false }) (afterEntry entryFuel) := by
  rw [boundary2, if_pos h]
  rfl

theorem boundary2_unarmed (h : s.bpArmed = false) : boundary2 s = interruptLoop entryFuel s := by
  rw [boundary2, h, if_neg Bool.false_ne_true]

theorem boundary2_entered (harmed : s.bpArmed = true)
    (h : enterEvent breakpointVector { s with bpArmed := false } = .next t) :
    boundary2 s = if s.cfg.entryIsBoundary then interruptLoop entryFuel t else .next t := by
  rw [boundary2_armed harmed, andThen_of_next h, afterEntry_of_entry _ h]

theorem boundary2_settled (hmany : s.cfg.entryIsBoundary = true) (h : boundary2 s = .next t) :
    t.run = .halt ∨ selectInterrupt t = none := by
  cases harmed : s.bpArmed with
  | false => exact interruptLoop_settled hmany ((boundary2_unarmed harmed).symm.trans h)
  | true =>
    rw [boundary2_armed harmed] at h
    obtain ⟨u, hentry, hrest⟩ := andThen_next.1 h
    have hcfg : u.cfg = s.cfg := (enterEvent_eventOnly hentry).cfg
    rw [afterEntry, hcfg, hmany, if_pos rfl] at hrest
    exact interruptLoop_settled (hcfg ▸ hmany) hrest

theorem boundary_settled (hmany : s.cfg.entryIsBoundary = true) (h : boundary s = .next t) :
    t.run = .halt ∨ selectInterrupt t = none := by
  cases hpare : s.inp.pare with
  | true => cases (boundary_pare hpare).symm.trans h; exact .inl rfl
  | false =>
    by_cases hrun : s.run = .halt
    · cases (boundary_halt hrun).symm.trans h; exact .inl hrun
    · exact boundary2_settled hmany ((boundary_running hpare hrun).symm.trans h)

end

/-- The bound of the loop, with its first round taken off. -/
theorem entryFuel_eq_succ : entryFuel = entryFuel - 1 + 1 := rfl

section
variable {s t : State} {n : Nat}

theorem boundary2_idle (hbp : s.bpArmed = false) (h : s.run = .halt ∨ selectInterrupt s = none) :
    boundary2 s = .next s :=
  (boundary2_unarmed hbp).trans (interruptLoop_idle (entryFuel - 1) h)

theorem boundary2_interrupt (hbp : s.bpArmed = false) (hrun : s.run ≠ .halt) (hsel : selectInterrupt s = some n)
    (h : enterEvent (interruptVector n) (intAck n s) = .next t) :
    boundary2 s = if s.cfg.entryIsBoundary then interruptLoop (entryFuel - 1) t else .next t :=
  (boundary2_unarmed hbp).trans (interruptLoop_entered (entryFuel - 1) hrun hsel h)

end

/-- Settles O43: PARE and HALT, the breakpoint, the interrupts, then the loop and the acknowledge by themselves. -/
theorem boundaryOrder : Obligations.BoundaryOrder := by
  refine ⟨fun s => ?order, fun s k => ⟨interruptLoop_idle k, fun n t => interruptLoop_entered k⟩,
    fun s n hn => ⟨rfl, intAck_pi hn s, rfl⟩⟩
  refine ⟨boundary_pare, boundary_halt, fun hpare hrun hbp hsel => ?idle, fun hpare hrun hone hbp => ?breakOnce,
    fun n hpare hrun hone hbp hsel => ?interruptOnce, fun t hpare hrun hmany hbp h => ?breakMany,
    fun n t hpare hrun hmany hbp hsel h => ?interruptMany, fun t => boundary_settled⟩
  case idle => rw [boundary_running hpare hrun, boundary2_idle hbp (.inr hsel)]
  case breakOnce =>
    rw [boundary_running hpare hrun, boundary2_armed hbp]
    exact andThen_afterEntry_single (s := { s with bpArmed := false }) entryFuel hone
  case interruptOnce =>
    rw [boundary_running hpare hrun, boundary2_unarmed hbp, entryFuel_eq_succ, interruptLoop_accepted _ hrun hsel]
    exact andThen_afterEntry_single (s := intAck n s) _ hone
  case breakMany => rw [boundary_running hpare hrun, boundary2_entered hbp h, hmany, if_pos rfl]
  case interruptMany => rw [boundary_running hpare hrun, boundary2_interrupt hbp hrun hsel h, hmany, if_pos rfl]

/-! ### The instruction cycle (R469) -/

section
variable {s s1 t : State} {w : Word}

theorem step_of_stepNow (h : stepNow s = .next t) : step s = .next (advanceInputs t) := andThen_of_next h

theorem stepNow_reset (h : s.inp.reset = true) : stepNow s = runEvent resetSequence s := if_pos h

theorem stepNow_run (hreset : s.inp.reset = false) (hrun : s.run = .run) : stepNow s = runStep s := by
  rw [stepNow, hreset, if_neg Bool.false_ne_true, hrun]

theorem stepNow_wait (hreset : s.inp.reset = false) (hrun : s.run = .wait) : stepNow s = waitStep s := by
  rw [stepNow, hreset, if_neg Bool.false_ne_true, hrun]

theorem stepNow_halt (hreset : s.inp.reset = false) (hrun : s.run = .halt) : stepNow s = haltStep s := by
  rw [stepNow, hreset, if_neg Bool.false_ne_true, hrun]

theorem runStep_fetched (h : fetch16 (beginInstr s) = .ok w s1) : runStep s = runWord w s1 := by
  rw [runStep, h]

theorem runWord_decoded {i : Instr} (h : decode s.cfg w = .ok i) : runWord w s =
    andThen (andThen (exec i { s with noBase := Config.isExempt s.cfg w }) boundary) fun t =>
      .next (endInstr s i.extWords t) := by
  rw [runWord, h]

theorem runWord_invalid {e : DecodeError} (h : decode s.cfg w = .error e) : runWord w s =
    andThen (andThen (raiseInInstr .invalidOpcode s) boundary) fun t => .next (endInstr s 0 t) := by
  rw [runWord, h]

end

/-- Settles O41: `beginInstr` is the state the statement fetches from. -/
theorem stepRunsDecodedInstruction : Obligations.StepRunsDecodedInstruction := by
  intro s s1 w i hreset hrun hfetch hdecode
  rw [step, stepNow_run hreset hrun, runStep_fetched hfetch, runWord_decoded hdecode]

/-- Settles O42: the word is read as memory holds it, and the fetch moves PC only. -/
theorem invalidCodeTraps : Obligations.InvalidCodeTraps := by
  intro s e hreset hrun hcalm heven hmem hdecode
  have hcalm' : (beginInstr s).calm := hcalm.congr rfl rfl rfl
  have hfetch : fetch16 (beginInstr s) =
      .ok (s.mem.read true (s.relocStream s.pc)) ((beginInstr s).setPc (s.pc + 2)) := fetch16_memory hcalm' heven hmem
  have hpc : (beginInstr s).setPc (s.pc + 2) =
      { s with bpArmed := pswB s.cfg.pswLayout s.psw, noBase := false, stored := [], pc := s.pc + 2 } := by
    rw [State.setPc, mask_of_even (even_add_two heven)]
    rfl
  refine ⟨_, rfl, ?_⟩
  rw [step, stepNow_run hreset hrun, runStep_fetched hfetch,
    runWord_invalid (s := (beginInstr s).setPc (s.pc + 2)) hdecode, hpc]

/-! ### WAIT, HALT and the panel (R466 to R470) -/

theorem applyEdit_inp (s : State) (e : PanelEdit) : (applyEdit s e).inp = s.inp := by
  cases e with
  | mem a v => rfl
  | reg r v => cases r <;> rfl

theorem applyEdits_inp (s : State) (edits : List PanelEdit) : (edits.foldl applyEdit s).inp = s.inp := by
  induction edits generalizing s with
  | nil => rfl
  | cons e edits ih => exact (ih _).trans (applyEdit_inp s e)

theorem applyEdits_cfg (s : State) (edits : List PanelEdit) : (edits.foldl applyEdit s).cfg = s.cfg :=
  (applyEdits_keepsInv s edits).2

section
variable {s : State}

theorem waitStep_pare (h : s.inp.pare = true) : waitStep s = .next { s with run := .halt } := if_pos h

theorem waitStep_waits (h : s.inp.pare = false) : waitStep s = interruptLoop entryFuel s := by
  rw [waitStep, h, if_neg Bool.false_ne_true]

/-- The state after the edits of this step. -/
def State.edited (s : State) : State := s.inp.edits.foldl applyEdit s

theorem edited_inp (s : State) : s.edited.inp = s.inp := applyEdits_inp s _

theorem edited_cfg (s : State) : s.edited.cfg = s.cfg := applyEdits_cfg s _

theorem haltStep_eq (s : State) : haltStep s =
    if s.inp.execute then boundary2 { s.edited with run := .run }
    else if s.inp.stepOne then andThen (runStep { s.edited with run := .run }) fun u => .next { u with run := .halt }
    else .next s.edited := by
  rw [← edited_inp s]
  rfl

theorem haltStep_execute (h : s.inp.execute = true) : haltStep s = boundary2 { s.edited with run := .run } := by
  rw [haltStep_eq, if_pos h]

theorem haltStep_stepOne (hexecute : s.inp.execute = false) (h : s.inp.stepOne = true) :
    haltStep s = andThen (runStep { s.edited with run := .run }) fun u => .next { u with run := .halt } := by
  rw [haltStep_eq, hexecute, if_neg Bool.false_ne_true, if_pos h]

theorem haltStep_stays (hexecute : s.inp.execute = false) (hstep : s.inp.stepOne = false) :
    haltStep s = .next s.edited := by
  rw [haltStep_eq, hexecute, hstep, if_neg Bool.false_ne_true, if_neg Bool.false_ne_true]

/-- Both ends of what follows an entry, as the step answers them: one entry, or the loop after it. -/
theorem step_afterEntry {b : Bool} {k : Nat} {t : State}
    (h : stepNow s = if b then interruptLoop k t else .next t) :
    (b = false → step s = .next (advanceInputs t)) ∧
    (∀ u, b = true → interruptLoop k t = .next u → step s = .next (advanceInputs u)) := by
  refine ⟨fun hb => step_of_stepNow ?_, fun u hb hu => step_of_stepNow ?_⟩
  · rw [h, hb, if_neg Bool.false_ne_true]
  · rw [h, hb, if_pos rfl, hu]

end

/-- Settles O45: WAIT is the interrupt loop, EXECUTE the boundary after its PARE and HALT, a single step what a step in
RUN is. -/
theorem waitAndHaltStay : Obligations.WaitAndHaltStay := by
  intro s hreset
  refine ⟨fun hrun hpare hsel => ?waits, fun hrun hpare => ?pare, fun n t hrun hpare hsel h => ?accepted,
    fun hrun hexecute hstep => ?halted, fun e hrun hexecute he => ?execute, fun u hrun hexecute hstep h => ?single⟩
  case waits =>
    apply step_of_stepNow
    rw [stepNow_wait hreset hrun, waitStep_waits hpare]
    exact interruptLoop_idle (entryFuel - 1) (.inr hsel)
  case pare => exact step_of_stepNow ((stepNow_wait hreset hrun).trans (waitStep_pare hpare))
  case accepted =>
    apply step_afterEntry
    rw [stepNow_wait hreset hrun, waitStep_waits hpare]
    exact interruptLoop_entered (entryFuel - 1) (by rw [hrun]; exact nofun) hsel h
  case halted =>
    have hstay := step_of_stepNow ((stepNow_halt hreset hrun).trans (haltStep_stays hexecute hstep))
    refine ⟨hstay, fun hnone => ?_⟩
    rwa [State.edited, hnone] at hstay
  case execute =>
    have hnow : stepNow s = boundary2 e := by
      rw [stepNow_halt hreset hrun, haltStep_execute hexecute, he]
      rfl
    have hcfg : e.cfg = s.cfg := by rw [he]; exact edited_cfg s
    have hrunning : e.run ≠ .halt := by rw [he]; exact nofun
    rw [← hcfg]
    exact ⟨fun hbp hsel => step_of_stepNow (hnow.trans (boundary2_idle hbp (.inr hsel))),
      fun n t hbp hsel h => step_afterEntry (hnow.trans (boundary2_interrupt hbp hrunning hsel h)),
      fun t hbp h => step_afterEntry (hnow.trans (boundary2_entered hbp h))⟩
  case single =>
    have hreset' : s.edited.inp.reset = false := by rw [edited_inp, hreset]
    have hstep' : runStep { s.edited with run := .run } = .next u :=
      (stepNow_run (s := { s.edited with run := .run }) hreset' rfl).symm.trans h
    apply step_of_stepNow
    rw [stepNow_halt hreset hrun, haltStep_stepOne hexecute hstep, andThen_of_next hstep']

/-! ### Reset (70_reset_and_hazards.md R501) -/

/-- The end of the reset sequence, with the two words of the reset vector. -/
def State.afterReset (s : State) : State :=
  { (s.resetRegs.setPsw (s.mem.read true 0xFF80)).setPc (s.mem.read true 0xFF82) with bpArmed := false, run := .halt }

theorem resetRegs_calm {s : State} (h : s.calm) : s.resetRegs.calm := h.congr rfl h.no_stale.symm rfl

theorem resetSequence_memory {s : State} (hc : s.calm) (hpsw : s.memoryAt 0xFF80 = true)
    (hpc : s.memoryAt 0xFF82 = true) : resetSequence s = .ok () s.afterReset := by
  have hp := vecRead_memory (resetRegs_calm hc) (vec := 0xFF80) (by decide) (by decide) hpsw
  have hq := vecRead_memory (resetRegs_calm hc) (vec := 0xFF82) (by decide) (by decide) hpc
  rw [resetSequence, bind_of_ok (modify_apply ..), bind_of_ok hp, bind_of_ok hq]
  rfl

theorem runEvent_resetSequence {s : State} (hc : s.calm) (hpsw : s.memoryAt 0xFF80 = true)
    (hpc : s.memoryAt 0xFF82 = true) : runEvent resetSequence s = .next s.afterReset :=
  runEvent_ok (resetSequence_memory hc hpsw hpc)

/-- Settles O40: RST and the panel's RESET run the same sequence. (The model's `resetSequence` has the plain name.) -/
theorem Reset.resetSequence : Obligations.ResetSequence := by
  intro s hc hpsw hpc
  have hrun := runEvent_resetSequence hc hpsw hpc
  refine ⟨s.afterReset, hrun, fun hreset => step_of_stepNow ((stepNow_reset hreset).trans hrun), rfl, rfl, rfl, rfl,
    rfl, rfl, rfl, rfl, rfl, rfl, fun r => ?_⟩
  cases r <;> rfl

end Sys2Proof.Machine

/-! SUPPORT. How a step can stop (60_exceptions.md R452, R453; logs 12, 14 and 27): every computation leaves the
configuration and refuses only what `MEM_MAP` marks read-only, a chain of entries uses up the system stack before its
bound, and the obligation about both. -/

namespace Sys2Proof.Machine

/-! ### Computations under a configuration -/

/-- `MEM_MAP` has a read-only region (20_memory.md R85). -/
def Config.hasRom (c : Config) : Bool := c.memMap.any fun r => r.kind == .rom

/-- Run on a state with configuration `c`, `x` leaves the configuration, and it is refused only where `c` has read-only
memory. -/
structure Runs {α : Type} (c : Config) (x : M α) : Prop where
  ok : ∀ {s a t}, s.cfg = c → x s = .ok a t → t.cfg = c
  error : ∀ {s e t}, s.cfg = c → x s = .error e t → t.cfg = c
  refuse : ∀ {s r t}, s.cfg = c → x s = .error (.refuse r) t → Config.hasRom c = true

section
variable {α β : Type} {c : Config}

theorem runs_of_ok {x : M α} (h : ∀ s, s.cfg = c → ∃ a t, x s = .ok a t ∧ t.cfg = c) : Runs c x where
  ok hs hx := by obtain ⟨_, _, hxt, ht⟩ := h _ hs; cases hxt.symm.trans hx; exact ht
  error hs hx := by obtain ⟨_, _, hxt, _⟩ := h _ hs; exact nomatch hxt.symm.trans hx
  refuse hs hx := by obtain ⟨_, _, hxt, _⟩ := h _ hs; exact nomatch hxt.symm.trans hx

theorem runs_pure (a : α) : Runs c (pure a : M α) := runs_of_ok fun s hs => ⟨a, s, rfl, hs⟩

theorem runs_set {t : State} (h : t.cfg = c) : Runs c (set t : M PUnit) := runs_of_ok fun _ _ => ⟨⟨⟩, t, rfl, h⟩

theorem runs_modify {f : State → State} (h : ∀ s, (f s).cfg = s.cfg := by intros; rfl) :
    Runs c (modify f : M PUnit) := runs_of_ok fun s hs => ⟨⟨⟩, f s, rfl, (h s).trans hs⟩

theorem runs_trap (e : Trap) : Runs c (throw (.trap e) : M α) where
  ok _ hx := nomatch hx
  error hs hx := by cases hx; exact hs
  refuse _ hx := nomatch hx

theorem runs_halt : Runs c (throw .halt : M α) where
  ok _ hx := nomatch hx
  error hs hx := by cases hx; exact hs
  refuse _ hx := nomatch hx

theorem runs_refuse (h : Config.hasRom c = true) (r : Refusal) : Runs c (throw (.refuse r) : M α) where
  ok _ hx := nomatch hx
  error hs hx := by cases hx; exact hs
  refuse _ _ := h

theorem runs_bind {x : M α} {f : α → M β} (hx : Runs c x) (hf : ∀ a, Runs c (f a)) : Runs c (x >>= f) where
  ok hs h := by
    obtain ⟨a, u, hxu, hfu⟩ := bind_ok.1 h
    exact (hf a).ok (hx.ok hs hxu) hfu
  error hs h := by
    obtain hxt | ⟨a, u, hxu, hfu⟩ := bind_error.1 h
    · exact hx.error hs hxt
    · exact (hf a).error (hx.ok hs hxu) hfu
  refuse hs h := by
    obtain hxt | ⟨a, u, hxu, hfu⟩ := bind_error.1 h
    · exact hx.refuse hs hxt
    · exact (hf a).refuse (hx.ok hs hxu) hfu

/-- What follows `get` may use that the state got has the configuration. -/
theorem runs_get_bind {f : State → M β} (h : ∀ s, s.cfg = c → Runs c (f s)) : Runs c (get >>= f) where
  ok hs hx := (h _ hs).ok hs hx
  error hs hx := (h _ hs).error hs hx
  refuse hs hx := (h _ hs).refuse hs hx

theorem runs_raiseIf (b : Bool) (e : Trap) : Runs c (raiseIf b e) := by
  cases b
  · exact runs_pure ()
  · exact runs_trap e

theorem runs_haltIf (b : Bool) : Runs c (haltIf b) := by
  cases b
  · exact runs_pure ()
  · exact runs_halt

theorem runs_doIf (b : Bool) {x : M Unit} (hx : Runs c x) : Runs c (doIf b x) := by
  cases b
  · exact runs_pure ()
  · exact hx

theorem runs_haltOnTrap {x : M α} (hx : Runs c x) : Runs c (haltOnTrap x) where
  ok hs h := by
    unfold haltOnTrap at h
    split at h <;> cases h
    next hxt => exact hx.ok hs hxt
  error hs h := by
    unfold haltOnTrap at h
    split at h <;> cases h <;> next hxt => exact hx.error hs hxt
  refuse hs h := by
    unfold haltOnTrap at h
    split at h <;> cases h
    next hxt => exact hx.refuse hs hxt

end

/-! ### Accesses -/

section
variable {c : Config}

/-- What is answered by read-only memory is in a read-only region. -/
theorem hasRom_of_answers {write wide : Bool} {pa : Word} (h : Config.answers c write wide pa = some .rom) :
    Config.hasRom c = true := by
  obtain ⟨r, hr, hkind⟩ := Option.map_eq_some_iff.1 ((answers_eq_some_iff c write wide pa .rom).1 h).1
  exact List.any_eq_true.2 ⟨r, List.mem_of_find?_eq_some hr, beq_iff_eq.2 hkind⟩

theorem admpTick_runs : Runs c admpTick := runs_modify fun s => by split <;> rfl

theorem busRead_runs (wide : Bool) (pa : Word) : Runs c (busRead wide pa) := by
  have hcheck (d : Config) (w : Word) : Runs c (raiseIf (Config.parityError d wide pa) .parity >>= fun _ => pure w) :=
    runs_bind (runs_raiseIf _ _) fun _ => runs_pure w
  refine runs_bind admpTick_runs fun _ => runs_get_bind fun s hs => ?_
  cases Config.answers s.cfg false wide pa with
  | none => exact runs_trap _
  | some k =>
    cases k
    case ram => exact hcheck _ _
    case rom => exact hcheck _ _
    case device => exact runs_bind (runs_set hs) fun _ => hcheck _ _

/-- The one refusal of the model. -/
theorem busWrite_runs (own wide : Bool) (pa v : Word) : Runs c (busWrite own wide pa v) := by
  refine runs_bind admpTick_runs fun _ => runs_get_bind fun s hs => ?_
  cases h : Config.answers s.cfg true wide pa with
  | none => exact runs_trap _
  | some k =>
    cases k
    case ram => exact runs_set hs
    case rom => exact runs_refuse (hasRom_of_answers (hs ▸ h)) _
    case device => exact runs_set hs

theorem memRead_runs (wide : Bool) (a : Word) : Runs c (memRead wide a) :=
  runs_bind (runs_raiseIf _ _) fun _ => runs_get_bind fun _ _ => busRead_runs _ _

theorem memWrite_runs (wide : Bool) (a v : Word) : Runs c (memWrite wide a v) :=
  runs_bind (runs_raiseIf _ _) fun _ => runs_get_bind fun _ _ => busWrite_runs _ _ _ _

theorem prefetched_runs (wide : Bool) (pa v : Word) : Runs c (prefetched wide pa v) :=
  runs_get_bind fun s hs => by
    split
    · exact runs_bind (runs_set hs) fun _ => runs_pure _
    · exact runs_pure v

theorem streamRead_runs (wide : Bool) (a : Word) : Runs c (streamRead wide a) :=
  runs_bind (runs_raiseIf _ _) fun _ => runs_get_bind fun _ _ =>
    runs_bind (busRead_runs _ _) fun _ => prefetched_runs _ _ _

theorem streamWrite_runs (wide : Bool) (a v : Word) : Runs c (streamWrite wide a v) :=
  runs_bind (runs_raiseIf _ _) fun _ => runs_get_bind fun _ _ => busWrite_runs _ _ _ _

theorem fetch16_runs : Runs c fetch16 :=
  runs_get_bind fun _ _ => runs_bind (streamRead_runs _ _) fun _ => runs_bind runs_modify fun _ => runs_pure _

theorem pstackRead_runs (wide : Bool) (a : Word) : Runs c (pstackRead wide a) :=
  runs_get_bind fun _ _ => runs_bind (runs_raiseIf _ _) fun _ => busRead_runs _ _

theorem pstackWrite_runs (wide : Bool) (a v : Word) : Runs c (pstackWrite wide a v) :=
  runs_get_bind fun _ _ => runs_bind (runs_raiseIf _ _) fun _ => busWrite_runs _ _ _ _

theorem pushProgram_runs (v : Word) : Runs c (pushProgram v) :=
  runs_bind runs_modify fun _ => runs_get_bind fun _ _ => pstackWrite_runs _ _ _

theorem sstackRead_runs (a : Word) : Runs c (sstackRead a) :=
  runs_get_bind fun _ _ => runs_bind (runs_haltIf _) fun _ => runs_haltOnTrap (busRead_runs _ _)

theorem sstackWrite_runs (own : Bool) (a v : Word) : Runs c (sstackWrite own a v) :=
  runs_get_bind fun _ _ => runs_bind (runs_haltIf _) fun _ => runs_haltOnTrap (busWrite_runs _ _ _ _)

theorem pushSystem_runs (own : Bool) (v : Word) : Runs c (pushSystem own v) :=
  runs_bind runs_modify fun _ => runs_get_bind fun _ _ => sstackWrite_runs _ _ _

theorem popSystem_runs : Runs c popSystem :=
  runs_get_bind fun _ _ => runs_bind (sstackRead_runs _) fun _ => runs_bind runs_modify fun _ => runs_pure _

/-! ### Entries, returns and the reset sequence -/

theorem vecRead_runs (a : Word) : Runs c (vecRead a) := memRead_runs true a

theorem trapEntry_runs (savedPc vec : Word) : Runs c (trapEntry savedPc vec) :=
  runs_bind (pushSystem_runs _ _) fun _ => runs_get_bind fun _ _ => runs_bind (pushSystem_runs _ _) fun _ =>
    runs_bind (vecRead_runs _) fun _ => runs_bind (vecRead_runs _) fun _ => runs_modify

theorem returnEntry_runs : Runs c returnEntry :=
  runs_bind popSystem_runs fun _ => runs_bind runs_modify fun _ => runs_bind popSystem_runs fun _ => runs_modify

theorem exchangeEntry_runs : Runs c exchangeEntry :=
  runs_bind popSystem_runs fun _ => runs_bind popSystem_runs fun _ => runs_get_bind fun _ _ =>
    runs_bind (pushSystem_runs _ _) fun _ => runs_bind (pushSystem_runs _ _) fun _ => runs_modify

theorem resetSequence_runs : Runs c resetSequence :=
  runs_bind runs_modify fun _ => runs_bind (vecRead_runs _) fun _ => runs_bind (vecRead_runs _) fun _ => runs_modify

/-! ### Operands -/

theorem locate_runs (o : Operand) : Runs c (locate o) := by
  have hpointer (a : Word) : Runs c (readPointer a) := runs_bind (memRead_runs true a) fun _ => runs_pure _
  cases o with
  | direct r => exact runs_pure _
  | indirect r => exact runs_get_bind fun _ _ => runs_pure _
  | indexed r => exact runs_bind fetch16_runs fun _ => runs_get_bind fun _ _ => runs_pure _
  | indexedIndirect r => exact runs_bind fetch16_runs fun _ => runs_get_bind fun _ _ => hpointer _
  | spDirect => exact runs_pure _
  | autodec => exact runs_bind runs_modify fun _ => runs_get_bind fun _ _ => runs_pure _
  | autoinc => exact runs_get_bind fun _ hs => runs_bind (runs_set hs) fun _ => runs_pure _
  | stackTop => exact runs_get_bind fun _ _ => runs_pure _
  | immediate => exact runs_get_bind fun _ hs => runs_bind (runs_set hs) fun _ => runs_pure _
  | absolute => exact runs_bind fetch16_runs fun _ => runs_pure _
  | relative => exact runs_get_bind fun _ _ => runs_bind fetch16_runs fun _ => runs_pure _
  | relativeIndirect => exact runs_get_bind fun _ _ => runs_bind fetch16_runs fun _ => hpointer _

theorem readLoc_runs (n : Nat) (l : Loc) : Runs c (readLoc n l) := by
  cases l with
  | reg r => exact runs_get_bind fun _ _ => runs_pure _
  | spReg => exact runs_get_bind fun _ _ => runs_pure _
  | mem a => exact runs_bind (memRead_runs _ _) fun _ => runs_pure _
  | imm a => exact runs_bind (streamRead_runs _ _) fun _ => runs_pure _
  | pstk a => exact runs_bind (pstackRead_runs _ _) fun _ => runs_pure _

theorem writeLoc_runs (n : Nat) (l : Loc) (v : BitVec n) : Runs c (writeLoc n l v) := by
  cases l with
  | reg r => exact runs_modify fun s => setG_cfg s r _
  | spReg => exact runs_modify
  | mem a => exact memWrite_runs _ _ _
  | imm a => exact streamWrite_runs _ _ _
  | pstk a => exact pstackWrite_runs _ _ _

theorem readOperand_runs (n : Nat) (o : Operand) : Runs c (readOperand n o) :=
  runs_bind (locate_runs o) fun l => readLoc_runs n l

theorem setFlags_runs (p : Word) : Runs c (setFlags p) := runs_modify

theorem locateLong_runs (o : Operand) : Runs c (locateLong o) := by
  unfold locateLong
  cases pairOf o with
  | none => exact runs_trap _
  | some p => exact runs_pure p

theorem readPair_runs (p : Pair) : Runs c (readPair p) := runs_get_bind fun _ _ => runs_pure _

theorem writePair_runs (p : Pair) (v : Long) : Runs c (writePair p v) :=
  runs_modify fun s => by rw [(setPair_operandOnly s p v).same]

/-! ### The shapes of instructions -/

section
variable {n : Nat} {f d : Operand}

/-- The last access of an instruction, then its new PSW. -/
theorem write_setFlags_runs (l : Loc) (v : BitVec n) (p : Word) : Runs c (writeLoc n l v >>= fun _ => setFlags p) :=
  runs_bind (writeLoc_runs n l v) fun _ => setFlags_runs p

theorem twoReadWrite_runs {op : BitVec n → BitVec n → Word → BitVec n × Word} : Runs c (twoReadWrite n op f d) :=
  runs_bind (readOperand_runs n f) fun _ => runs_bind (locate_runs d) fun l => runs_bind (readLoc_runs n l) fun _ =>
    runs_get_bind fun _ _ => write_setFlags_runs l _ _

theorem twoReadOnly_runs {op : BitVec n → BitVec n → Word → BitVec n × Word} : Runs c (twoReadOnly n op f d) :=
  runs_bind (readOperand_runs n f) fun _ => runs_bind (readOperand_runs n d) fun _ =>
    runs_get_bind fun _ _ => setFlags_runs _

theorem moveOp_runs : Runs c (moveOp n f d) :=
  runs_bind (readOperand_runs n f) fun v => runs_bind (locate_runs d) fun l => runs_bind (writeLoc_runs n l v) fun _ =>
    runs_get_bind fun _ _ => setFlags_runs _

theorem exchangeOp_runs : Runs c (exchangeOp n f d) :=
  runs_bind (locate_runs f) fun lf => runs_bind (readLoc_runs n lf) fun v => runs_bind (locate_runs d) fun ld =>
    runs_bind (readLoc_runs n ld) fun w => runs_bind (writeLoc_runs n lf w) fun _ =>
      runs_bind (writeLoc_runs n ld v) fun _ => runs_get_bind fun _ _ => setFlags_runs _

theorem djzOp_runs : Runs c (djzOp f d) :=
  runs_bind (locate_runs f) fun l => runs_bind (readLoc_runs 16 l) fun _ => runs_bind (readOperand_runs 16 d) fun _ =>
    runs_get_bind fun _ _ => runs_bind (writeLoc_runs 16 l _) fun _ => runs_bind (setFlags_runs _) fun _ =>
      runs_doIf _ runs_modify

theorem jsbOp_runs : Runs c (jsbOp f d) :=
  runs_bind (locate_runs f) fun l => runs_bind (readLoc_runs 16 l) fun link =>
    runs_bind (readOperand_runs 16 d) fun _ => runs_get_bind fun _ _ => runs_bind (writeLoc_runs 16 l _) fun _ =>
      runs_bind (pushProgram_runs link) fun _ => runs_modify

theorem oneReadWrite_runs {op : BitVec n → Word → BitVec n × Word} : Runs c (oneReadWrite n op d) :=
  runs_bind (locate_runs d) fun l => runs_bind (readLoc_runs n l) fun _ =>
    runs_get_bind fun _ _ => write_setFlags_runs l _ _

theorem oneReadOnly_runs {op : BitVec n → Word → BitVec n × Word} : Runs c (oneReadOnly n op d) :=
  runs_bind (readOperand_runs n d) fun _ => runs_get_bind fun _ _ => setFlags_runs _

theorem oneWriteOnly_runs {op : Word → BitVec n × Word} : Runs c (oneWriteOnly n op d) :=
  runs_bind (locate_runs d) fun l => runs_get_bind fun _ _ => write_setFlags_runs l _ _

theorem oneWriteNegative_runs {op : BitVec n → Word → BitVec n × Word} : Runs c (oneWriteNegative n op d) :=
  runs_bind (locate_runs d) fun l => runs_bind (readLoc_runs n l) fun _ => runs_get_bind fun _ _ =>
    runs_bind (runs_doIf _ (writeLoc_runs n l _)) fun _ => setFlags_runs _

theorem longShift_runs {sh : ShiftRule 32} : Runs c (longShift sh d) :=
  runs_bind (locateLong_runs d) fun p => runs_bind (readPair_runs p) fun _ => runs_get_bind fun _ _ =>
    runs_bind (writePair_runs p _) fun _ => setFlags_runs _

theorem storeSpecial_runs {reg : State → Word} : Runs c (storeSpecial reg d) :=
  runs_bind (locate_runs d) fun l => runs_get_bind fun _ _ => writeLoc_runs 16 l _

theorem loadSpecial_runs {upd : Word → State → State} (h : ∀ v s, (upd v s).cfg = s.cfg) :
    Runs c (loadSpecial upd d) :=
  runs_bind (readOperand_runs 16 d) fun v => runs_modify (h v)

theorem retOp_runs : Runs c (retOp d) :=
  runs_bind (locate_runs d) fun l => runs_bind (readLoc_runs 16 l) fun _ => runs_bind runs_modify fun _ =>
    runs_get_bind fun _ _ => runs_bind (pstackRead_runs _ _) fun v => runs_bind (writeLoc_runs 16 l v) fun _ =>
      runs_modify

theorem sfgmbOp_runs : Runs c (sfgmbOp d) :=
  runs_bind (locate_runs d) fun l => runs_get_bind fun _ hs => by
    split
    · exact writeLoc_runs 8 l _
    · exact runs_bind (runs_set hs) fun _ => writeLoc_runs 8 l _

theorem branchIf_runs (cond : Word → Bool) (off : BitVec 8) : Runs c (branchIf cond off) :=
  runs_modify fun s => by split <;> rfl

theorem ercOp_runs (k : BitVec 7) : Runs c (ercOp k) := runs_modify fun s => by split <;> rfl

theorem maskOp_runs (g : BitVec 7 → BitVec 7) : Runs c (maskOp g) := runs_modify

theorem saveRegisters_runs : Runs c saveRegisters := by
  have hthen (v : Word) {x : M Unit} (hx : Runs c x) : Runs c (pushProgram v >>= fun _ => x) :=
    runs_bind (pushProgram_runs v) fun _ => hx
  exact runs_get_bind fun s _ =>
    hthen s.rf (hthen s.re (hthen s.rd (hthen s.rc (hthen s.rb (pushProgram_runs s.ra)))))

theorem popToReg_runs (r : GReg) : Runs c (popToReg r) :=
  runs_get_bind fun _ _ => runs_bind (pstackRead_runs _ _) fun _ => runs_modify fun s => setG_cfg s r _

theorem restoreRegisters_runs : Runs c restoreRegisters := by
  have hthen (r : GReg) {x : M Unit} (hx : Runs c x) : Runs c (popToReg r >>= fun _ => x) :=
    runs_bind (popToReg_runs r) fun _ => hx
  exact hthen .ra (hthen .rb (hthen .rc (hthen .rd (hthen .re (popToReg_runs .rf)))))

/-! ### The ASTROM -/

theorem requireUp_runs : Runs c requireUp := runs_get_bind fun _ _ => runs_raiseIf _ _

theorem longSource_runs (p : Operand) : Runs c (longSource p) :=
  runs_bind (locateLong_runs p) fun q => readPair_runs q

theorem acSource_runs (b : AcReg) : Runs c (acSource b) := runs_get_bind fun _ _ => runs_pure _

theorem acIntSource_runs (b : AcReg) : Runs c (acIntSource b) := runs_get_bind fun _ _ => runs_pure _

theorem putResult_cfg (s : State) (w : Bool) (a : AcReg) (x : Long × AstromCodes) :
    (s.putResult w a x).cfg = s.cfg := by
  cases w
  · rfl
  · exact setM_cfg s a x.1

theorem astromOp_runs {α : Type} {src : M α} {op : Config → Long → α → Long × AstromCodes} {w : Bool} {a : AcReg}
    (hsrc : Runs c src) : Runs c (astromOp src op w a) :=
  runs_bind hsrc fun _ => runs_bind requireUp_runs fun _ => runs_get_bind fun s hs =>
    runs_bind (runs_set ((putResult_cfg s w a _).trans hs)) fun _ => runs_raiseIf _ _

theorem storeFloat_runs {a : AcReg} : Runs c (storeFloat a d) :=
  runs_bind (locateLong_runs d) fun q => runs_bind requireUp_runs fun _ => runs_get_bind fun _ _ =>
    runs_bind (writePair_runs q _) fun _ => runs_modify

theorem storeInt_runs {a : AcReg} : Runs c (storeInt a d) :=
  runs_bind (locate_runs d) fun l => runs_bind requireUp_runs fun _ => runs_get_bind fun _ _ =>
    runs_bind (writeLoc_runs 16 l _) fun _ => runs_modify

end

end

/-! ### Entries use up the system stack (R452; 20_memory.md R81) -/

/-- No more entries than this find room on the system stack: each takes four bytes of it, and the first has to be at
most at its top. -/
def State.entriesLeft (s : State) : Nat := if s.sps.toNat ≤ 0xF801 then s.sps.toNat / 4 else 0

/-- The bound of the model is beyond what the system stack holds (log 14). -/
theorem entriesLeft_lt_entryFuel (s : State) : s.entriesLeft + 2 ≤ entryFuel := by
  unfold State.entriesLeft entryFuel
  split <;> omega

/-- A push that ends has lowered SPS by two at least, the bit that is forced to 0 aside. -/
theorem pushSystem_drop {own : Bool} {v : Word} {s t : State} {a : Unit} (h : pushSystem own v s = .ok a t) :
    t.sps.toNat + 2 ≤ s.sps.toNat := by
  have hdown : t.sps.toNat < s.sps.toNat := (pushSystem_ok h).1
  rw [pushSystem_apply] at h
  have hsps := sps_of_push (keepsAt_ok (sstackWrite_busOnly _ _ _ _) h)
  bv_omega

theorem entriesLeft_lt_of_drop {s t : State} (hdrop : t.sps.toNat + 4 ≤ s.sps.toNat) (htop : s.sps.toNat ≤ 0xF801) :
    t.entriesLeft < s.entriesLeft := by
  unfold State.entriesLeft
  rw [if_pos htop, if_pos (by omega)]
  omega

/-- Once both pushes of an entry are made there is room for one entry less. -/
theorem entriesLeft_lt_of_pushes {savedPc : Word} {s u w t : State} {a b : Unit}
    (hpc : pushSystem false savedPc s = .ok a u) (hpsw : pushSystem false u.psw u = .ok b w) (hsps : t.sps = w.sps) :
    t.entriesLeft < s.entriesLeft := by
  have hfirst := pushSystem_drop hpc
  have hsecond := pushSystem_drop hpsw
  exact entriesLeft_lt_of_drop (by rw [hsps]; omega) (pushSystem_ok hpc).2

theorem trapEntry_ok_entriesLeft {savedPc vec : Word} {s t : State} {a : Unit}
    (h : trapEntry savedPc vec s = .ok a t) : t.entriesLeft < s.entriesLeft := by
  rw [trapEntry_eq] at h
  obtain ⟨_, u, hpc, h⟩ := bind_ok.1 h
  rw [get_bind_apply] at h
  obtain ⟨_, w, hpsw, hload⟩ := bind_ok.1 h
  exact entriesLeft_lt_of_pushes hpc hpsw (keepsAt_ok (loadVector_sps vec w) hload)

/-- That a breakpoint is due takes no room. -/
theorem unarmed_entriesLeft (s : State) : State.entriesLeft { s with bpArmed := false } = s.entriesLeft := rfl

/-- A push is never abandoned by a trap, so a trap of an entry is one of its vector reads (R453). -/
theorem trapEntry_trap_entriesLeft {savedPc vec : Word} {s t : State} {e : Trap}
    (h : trapEntry savedPc vec s = .error (.trap e) t) : t.entriesLeft < s.entriesLeft := by
  rw [trapEntry_eq] at h
  obtain hfail | ⟨_, u, hpc, h⟩ := bind_error.1 h
  · exact absurd rfl ((pushSystem_error hfail).2 e)
  · rw [get_bind_apply] at h
    obtain hfail | ⟨_, w, hpsw, hload⟩ := bind_error.1 h
    · exact absurd rfl ((pushSystem_error hfail).2 e)
    · exact entriesLeft_lt_of_pushes hpc hpsw (keepsAt_error (loadVector_sps vec w) hload)

/-- After a chain of entries the CPU is in HALT, or there is room for less of them. -/
theorem raiseTrap_halt_or_entriesLeft {k : Nat} {savedPc : Word} {e : Trap} {s t : State}
    (h : raiseTrap k savedPc e s = .next t) : t.run = .halt ∨ t.entriesLeft < s.entriesLeft := by
  induction k generalizing e s with
  | zero => cases h
  | succ k ih =>
    unfold raiseTrap at h
    split at h
    · next hx =>
      cases h
      have hfewer := trapEntry_ok_entriesLeft hx
      exact .inr (hfewer.trans_eq (unarmed_entriesLeft s))
    · next hx =>
      have hfewer := trapEntry_trap_entriesLeft hx
      exact (ih h).imp_right fun hlt => hlt.trans (hfewer.trans_eq (unarmed_entriesLeft s))
    · cases h; exact .inl rfl
    · cases h

theorem enterEvent_halt_or_entriesLeft {vec : Word} {s t : State} (h : enterEvent vec s = .next t) :
    t.run = .halt ∨ t.entriesLeft < s.entriesLeft := by
  unfold enterEvent runEvent at h
  split at h
  · next hx => cases h; exact .inr (trapEntry_ok_entriesLeft hx)
  · next hx => exact (raiseTrap_halt_or_entriesLeft h).imp_right fun hlt => hlt.trans (trapEntry_trap_entriesLeft hx)
  · cases h; exact .inl rfl
  · cases h

/-! ### Results under a configuration -/

/-- A next state with configuration `c`, or a refusal where `c` has read-only memory; no fault. -/
def Goes (c : Config) : Result → Prop
  | .next t => t.cfg = c
  | .fault _ => False
  | .refused _ => Config.hasRom c = true

section
variable {c : Config} {s : State}

theorem goes_andThen {r : Result} {f : State → Result} (hr : Goes c r)
    (hf : ∀ t, r = .next t → t.cfg = c → Goes c (f t)) : Goes c (andThen r f) := by
  cases r with
  | next t => exact hf t rfl hr
  | fault e => exact hr
  | refused e => exact hr

theorem goes_halted {t : State} (h : t.cfg = c) : Goes c (.next { t with run := .halt }) := h

/-- A chain of entries ends before its bound where the system stack has no room for that many. -/
theorem raiseTrap_goes {k : Nat} (savedPc : Word) (e : Trap) (hs : s.cfg = c) (hroom : s.entriesLeft < k) :
    Goes c (raiseTrap k savedPc e s) := by
  induction k generalizing e s with
  | zero => exact absurd hroom (Nat.not_lt_zero _)
  | succ k ih =>
    have hentry := trapEntry_runs (c := c) savedPc (trapVector e)
    have hcfg : State.cfg { s with bpArmed := false } = c := hs
    unfold raiseTrap
    split
    · next hx => exact hentry.ok hcfg hx
    · next hx =>
      have hfewer := trapEntry_trap_entriesLeft hx
      rw [unarmed_entriesLeft] at hfewer
      exact ih _ (hentry.error hcfg hx) (by omega)
    · next hx => exact goes_halted (hentry.error hcfg hx)
    · next hx => exact hentry.refuse hcfg hx

theorem raiseTrap_entryFuel_goes (savedPc : Word) (e : Trap) (hs : s.cfg = c) :
    Goes c (raiseTrap entryFuel savedPc e s) := by
  have hroom := entriesLeft_lt_entryFuel s
  exact raiseTrap_goes savedPc e hs (by omega)

theorem raiseInInstr_goes (e : Trap) (hs : s.cfg = c) : Goes c (raiseInInstr e s) := by
  unfold raiseInInstr
  split
  · exact raiseTrap_entryFuel_goes _ e hs
  · exact raiseTrap_entryFuel_goes _ e hs

theorem runM_goes {x : M Unit} (hx : Runs c x) (hs : s.cfg = c) : Goes c (runM x s) := by
  unfold runM
  split
  · next h => exact hx.ok hs h
  · next h => exact raiseInInstr_goes _ (hx.error hs h)
  · next h => exact goes_halted (hx.error hs h)
  · next h => exact hx.refuse hs h

theorem runEvent_goes {x : M Unit} (hx : Runs c x) (hs : s.cfg = c) : Goes c (runEvent x s) := by
  unfold runEvent
  split
  · next h => exact hx.ok hs h
  · next h => exact raiseTrap_entryFuel_goes _ _ (hx.error hs h)
  · next h => exact goes_halted (hx.error hs h)
  · next h => exact hx.refuse hs h

theorem enterEvent_goes (vec : Word) (hs : s.cfg = c) : Goes c (enterEvent vec s) :=
  runEvent_goes (trapEntry_runs _ _) hs

/-- Every instruction is a computation that runs, or an event, by its shape. -/
theorem runs_or_event (c : Config) (i : Instr) : (∃ x, (∀ s, exec i s = runM x s) ∧ Runs c x) ∨
    ∃ x : State → M Unit, (∀ s, exec i s = runEvent (x s) s) ∧ ∀ s, Runs c (x s) := by
  cases i with
  | add f d | addb f d | dac f d | dacb f d | sub f d | subb f d | dsb f d | dsbb f d | and f d | andb f d | or f d
  | orb f d | msk f d | mskb f d | xor f d | xorb f d | xnr f d | xnrb f d =>
    exact .inl ⟨_, fun _ => rfl, twoReadWrite_runs⟩
  | cmp f d | cmpb f d | coc f d | cocb f d | czc f d | czcb f d => exact .inl ⟨_, fun _ => rfl, twoReadOnly_runs⟩
  | mov f d | movb f d => exact .inl ⟨_, fun _ => rfl, moveOp_runs⟩
  | exc f d | excb f d => exact .inl ⟨_, fun _ => rfl, exchangeOp_runs⟩
  | djz f d => exact .inl ⟨_, fun _ => rfl, djzOp_runs⟩
  | jsb f d => exact .inl ⟨_, fun _ => rfl, jsbOp_runs⟩
  | neg d | negb d | adc d | adcb d | sb d | sbb d | inc d | incb d | dcr d | dcrb d | ict d | ictb d | dct d | dctb d
  | cmt d | cmtb d | swb d | sld d | sldb d | sdc d | sdcb d | rdc d | rdcb d | sad d | sadb d | rtd d | rtdb d
  | sle d | sleb d | sec d | secb d | recw d | recb d | rte d | rteb d =>
    exact .inl ⟨_, fun _ => rfl, oneReadWrite_runs⟩
  | stz d | stzb d | sto d | stob d | sxt d | sxtb d => exact .inl ⟨_, fun _ => rfl, oneWriteOnly_runs⟩
  | abs d | absb d => exact .inl ⟨_, fun _ => rfl, oneWriteNegative_runs⟩
  | cpz d | cpzb d => exact .inl ⟨_, fun _ => rfl, oneReadOnly_runs⟩
  | sldl d | sdcl d | rdcl d | sadl d | rtdl d | slel d | secl d | recl d | rtel d =>
    exact .inl ⟨_, fun _ => rfl, longShift_runs⟩
  | ret d => exact .inl ⟨_, fun _ => rfl, retOp_runs⟩
  | slp d | smk d | ssps d => exact .inl ⟨_, fun _ => rfl, storeSpecial_runs⟩
  | sfgmb d => exact .inl ⟨_, fun _ => rfl, sfgmbOp_runs⟩
  | jmp d | clp d | cmk d | dmi d | mki d | csps d => exact .inl ⟨_, fun _ => rfl, loadSpecial_runs fun _ _ => rfl⟩
  | halt => exact .inl ⟨modify fun s => { s with run := .halt }, fun _ => rfl, runs_modify⟩
  | wait => exact .inl ⟨modify fun s => { s with run := .wait }, fun _ => rfl, runs_modify⟩
  | nop => exact .inl ⟨pure (), fun _ => rfl, runs_pure ()⟩
  | srg => exact .inl ⟨_, fun _ => rfl, saveRegisters_runs⟩
  | crg => exact .inl ⟨_, fun _ => rfl, restoreRegisters_runs⟩
  | exs => exact .inl ⟨_, fun _ => rfl, exchangeEntry_runs⟩
  | rtt | rti => exact .inl ⟨_, fun _ => rfl, returnEntry_runs⟩
  | dr x | dco x | dcz x | dvo x | dvz x | dzo x | dzz x | dso x | dsz x | dtao x | dtaz x | dtbo x | dtbz x
  | dtco x | dtcz x | dge x | dlt x | dgt x | dle x | dhi x | dls x | dhs x | dlo x =>
    exact .inl ⟨_, fun _ => by unfold exec; rfl, branchIf_runs _ x⟩
  | erc k => exact .inl ⟨_, fun _ => rfl, ercOp_runs k⟩
  | cfo k | cfz k | ccc k => exact .inl ⟨_, fun _ => by unfold exec; rfl, maskOp_runs _⟩
  | cnm l => exact .inl ⟨_, fun _ => rfl, runs_modify⟩
  | smpfp a p | supfp a p | mlpfp a p | dvpfp a p | ngpfp a p | cmpfp a p | pfip a p | crpf a p =>
    exact .inl ⟨_, fun _ => rfl, astromOp_runs (longSource_runs p)⟩
  | smip a p | suip a p | mlip a p | dvip a p | ipfp a p | cri a p =>
    exact .inl ⟨_, fun _ => rfl, astromOp_runs (readOperand_runs 16 p)⟩
  | smpfm a b | supfm a b | mlpfm a b | dvpfm a b | ngpfm a b | abpf a b | cmpfm a b | pfim a b | cprgi a b =>
    exact .inl ⟨_, fun _ => rfl, astromOp_runs (acSource_runs b)⟩
  | smim a b | suim a b | mlim a b | dvim a b | ngin a b | absi a b | ipfm a b =>
    exact .inl ⟨_, fun _ => rfl, astromOp_runs (acIntSource_runs b)⟩
  | azpf a p => exact .inl ⟨_, fun _ => rfl, storeFloat_runs⟩
  | azi a p => exact .inl ⟨_, fun _ => rfl, storeInt_runs⟩
  | rst => exact .inr ⟨fun _ => resetSequence, fun _ => rfl, fun _ => resetSequence_runs⟩
  | btp => exact .inr ⟨fun s => trapEntry s.pc breakpointVector, fun _ => rfl, fun _ => trapEntry_runs _ _⟩
  | trapn n => exact .inr ⟨fun s => trapEntry s.pc (softVector n), fun _ => rfl, fun _ => trapEntry_runs _ _⟩

theorem exec_goes (i : Instr) (hs : s.cfg = c) : Goes c (exec i s) := by
  obtain ⟨x, hexec, hx⟩ | ⟨x, hexec, hx⟩ := runs_or_event c i
  · rw [hexec]; exact runM_goes hx hs
  · rw [hexec]; exact runEvent_goes (hx s) hs

/-! ### Boundaries and steps -/

/-- The loop ends before its bound: it needs a round for each entry, and one more to see that it is done. -/
theorem interruptLoop_goes {k : Nat} (hs : s.cfg = c)
    (hroom : s.entriesLeft + 2 ≤ k ∨ s.run = .halt ∧ 1 ≤ k) : Goes c (interruptLoop k s) := by
  induction k generalizing s with
  | zero => omega
  | succ k ih =>
    by_cases hidle : s.run = .halt ∨ selectInterrupt s = none
    · rw [interruptLoop_idle k hidle]; exact hs
    · obtain ⟨hrun, hsome⟩ := not_or.1 hidle
      obtain ⟨n, hsel⟩ := Option.ne_none_iff_exists'.1 hsome
      have hmore : s.entriesLeft + 2 ≤ k + 1 := hroom.resolve_right fun h => hrun h.1
      rw [interruptLoop_accepted k hrun hsel]
      refine goes_andThen (enterEvent_goes _ hs) fun t hentry ht => ?_
      unfold afterEntry
      split
      · refine ih ht ((enterEvent_halt_or_entriesLeft hentry).elim (fun h => .inr ⟨h, by omega⟩) fun h => .inl ?_)
        have hfewer : t.entriesLeft < s.entriesLeft := h
        omega
      · exact ht

theorem interruptLoop_entryFuel_goes (hs : s.cfg = c) : Goes c (interruptLoop entryFuel s) :=
  interruptLoop_goes hs (.inl (entriesLeft_lt_entryFuel s))

theorem boundary2_goes (hs : s.cfg = c) : Goes c (boundary2 s) := by
  cases hbp : s.bpArmed with
  | false => rw [boundary2_unarmed hbp]; exact interruptLoop_entryFuel_goes hs
  | true =>
    rw [boundary2_armed hbp]
    refine goes_andThen (enterEvent_goes _ hs) fun t _ ht => ?_
    unfold afterEntry
    split
    · exact interruptLoop_entryFuel_goes ht
    · exact ht

theorem boundary_goes (hs : s.cfg = c) : Goes c (boundary s) := by
  have ht : (applyPare s).cfg = c := (applyPare_eventOnly s).cfg.trans hs
  unfold boundary
  dsimp only
  split
  · exact ht
  · exact boundary2_goes ht

/-- What ends in a boundary and the model's bookkeeping. -/
theorem goes_boundary {r : Result} {g : State → State} (hr : Goes c r) (hg : ∀ t, (g t).cfg = t.cfg) :
    Goes c (andThen (andThen r boundary) fun t => .next (g t)) :=
  goes_andThen (goes_andThen hr fun _ _ => boundary_goes) fun t _ ht => (hg t).trans ht

theorem runWord_goes (w : Word) (hs : s.cfg = c) : Goes c (runWord w s) := by
  unfold runWord
  split
  · exact goes_boundary (exec_goes _ hs) fun _ => rfl
  · exact goes_boundary (raiseInInstr_goes _ hs) fun _ => rfl

theorem runStep_goes (hs : s.cfg = c) : Goes c (runStep s) := by
  have hbegin : (beginInstr s).cfg = c := hs
  unfold runStep
  split
  · next h => exact runWord_goes _ (fetch16_runs.ok hbegin h)
  · next e t h =>
    have hraised := raiseInInstr_goes e (fetch16_runs.error hbegin h)
    exact goes_boundary (g := fun u => { u with stale := [] }) hraised fun _ => rfl
  · next h => exact goes_halted (fetch16_runs.error hbegin h)
  · next h => exact fetch16_runs.refuse hbegin h

theorem haltStep_goes (hs : s.cfg = c) : Goes c (haltStep s) := by
  have hedited : s.edited.cfg = c := (edited_cfg s).trans hs
  rw [haltStep_eq]
  split
  · exact boundary2_goes hedited
  · split
    · exact goes_andThen (runStep_goes hedited) fun _ _ ht => ht
    · exact hedited

theorem waitStep_goes (hs : s.cfg = c) : Goes c (waitStep s) := by
  unfold waitStep
  split
  · exact hs
  · exact interruptLoop_entryFuel_goes hs

theorem stepNow_goes (hs : s.cfg = c) : Goes c (stepNow s) := by
  unfold stepNow
  split
  · exact runEvent_goes resetSequence_runs hs
  · split
    · exact haltStep_goes hs
    · exact waitStep_goes hs
    · exact runStep_goes hs

theorem step_goes (hs : s.cfg = c) : Goes c (step s) :=
  goes_andThen (stepNow_goes hs) fun t _ ht => (advanceInputs_keepsInv t).2.trans ht

end

theorem hasRom_of_noRom {s : State} (h : s.noRom = true) : Config.hasRom s.cfg = false := by
  rw [Config.hasRom, List.any_eq_false]
  exact fun r hr => by simpa using List.all_eq_true.1 h r hr

/-- Settles O59: every step goes on under its own configuration. That a store into the next two words of the stream is
run on and not refused (20_memory.md R91) is log 7. -/
theorem stepNeverFaults : Obligations.StepNeverFaults := by
  refine ⟨fun s e h => ?_, fun s h => ?_⟩
  · have hgoes := step_goes (s := s) rfl
    rw [h] at hgoes
    exact hgoes
  · have hgoes := step_goes (s := s) rfl
    cases hstep : step s with
    | next t => exact ⟨t, rfl⟩
    | fault e => rw [hstep] at hgoes; exact hgoes.elim
    | refused r => rw [hstep] at hgoes; exact nomatch (hasRom_of_noRom h).symm.trans hgoes

end Sys2Proof.Machine
